-- ==== Sys2Proof/Word.lean ====
section
/-! DEFINITION. The widths of SPI16-MT's words: the 16-bit payload and status word (R7, R8) and the 32-bit command word (R56).
Bit 0 is the least significant bit (R11). -/
namespace Sys2Proof

/-- A 16-bit word: an XFER payload, a status word, TXBUF or SHIFT (R7, R8, R11). -/
abbrev Word := BitVec 16

/-- A command word as the host offers it on the command port (R56, R57). -/
abbrev CmdWord := BitVec 32

end Sys2Proof
end

