-- ==== Sys2Proof/Syntax.lean ====
section
/-! DEFINITION. The command set of SPI16-MT: one constructor per row of spec/opcode_table.json (R2, R58). -/
namespace Sys2Proof

/-- The five commands (R2, R58). Only XFER has an operand (R61). -/
inductive Instr where
  /-- CFG: configure and enable (R70). -/
  | cfg
  /-- XFER w: send the 16-bit word `w` (R75). -/
  | xfer (w : Word)
  /-- CSL: assert chip-select, drive CS_N low (R94). -/
  | csl
  /-- CSH: deassert chip-select, drive CS_N high (R95). -/
  | csh
  /-- RDSR: return the status word (R101). -/
  | rdsr
  deriving DecidableEq, Repr

end Sys2Proof
end

