-- ==== Sys2Proof/WellFormed.lean ====
section
/-! DEFINITION. The one command format CMD32 (R56), its well-formedness checks (R58 to R60), and the names of the command
errors (R106). -/
namespace Sys2Proof

/-- The fields of a CMD32 command word (R56): OP is bits 31:24, RSV bits 23:16, DATA bits 15:0. -/
structure Cmd32 where
  op   : BitVec 8
  rsv  : BitVec 8
  data : Word
  deriving DecidableEq, Repr

/-- The causes of a command error (R106). -/
inductive CmdError where
  /-- OP is 0x00 or 0x06 to 0xFF: raised by any command word (R62, R63). -/
  | illegalOpcode
  /-- A legal OP with RSV not 0, or with DATA not 0 on a command other than XFER (R59, R60). -/
  | reservedNonzero
  /-- A well-formed XFER accepted while SPE = 0 (R76). -/
  | notConfigured
  deriving DecidableEq, Repr

/-- The code that ERRCODE records (R37, R106). Code 0 is "no error" and belongs to no cause. -/
def CmdError.code : CmdError → BitVec 2
  | .illegalOpcode   => 1
  | .reservedNonzero => 2
  | .notConfigured   => 3

/-- OP names a command (R58). -/
def Cmd32.opLegal (f : Cmd32) : Bool :=
  f.op == 0x01 || f.op == 0x02 || f.op == 0x03 || f.op == 0x04 || f.op == 0x05

/-- RSV is 0x00 (R59). -/
def Cmd32.rsvZero (f : Cmd32) : Bool := f.rsv == 0

/-- DATA is 0x0000 in every command but XFER (R60). -/
def Cmd32.dataAllowed (f : Cmd32) : Bool := f.op == 0x02 || f.data == 0

/-- The fields are those of a command (R58 to R60). -/
def Cmd32.wellFormed (f : Cmd32) : Bool := f.opLegal && f.rsvZero && f.dataAllowed

/-- The opcode of a command (R58). -/
def Instr.opcode : Instr → BitVec 8
  | .cfg    => 0x01
  | .xfer _ => 0x02
  | .csl    => 0x03
  | .csh    => 0x04
  | .rdsr   => 0x05

/-- The DATA field of a command: XFER's operand, 0x0000 for the others (R60, R61). -/
def Instr.data : Instr → Word
  | .xfer w => w
  | .cfg | .csl | .csh | .rdsr => 0

/-- The three fields of a command (R56). -/
def Instr.fields (i : Instr) : Cmd32 := { op := i.opcode, rsv := 0, data := i.data }

/-- A command is well formed when its fields are. Every `Instr` is: XFER's operand is any 16-bit value (R60), so nothing
can be ill formed but raw fields. -/
def Instr.wellFormed (i : Instr) : Bool := i.fields.wellFormed

end Sys2Proof
end

