-- ==== Sys2Proof/Decode.lean ====
section
/-! DEFINITION. Decoding a command word (R62), total on every 32-bit word, rejecting by name; then encoding (R56, R58, R65). -/
namespace Sys2Proof

/-- The fields of a command word (R56): `op := c[31:24]; rsv := c[23:16]; dat := c[15:0]` (R62). -/
def Cmd32.ofWord (c : CmdWord) : Cmd32 :=
  { op := c.extractLsb' 24 8, rsv := c.extractLsb' 16 8, data := c.extractLsb' 0 16 }

/-- The last step of `decode` (R62): the command that a legal OP names. Any other OP is illegal and falls to no neighbour. -/
def selectCommand (op : BitVec 8) (data : Word) : Except CmdError Instr :=
  if op = 0x01 then .ok .cfg
  else if op = 0x02 then .ok (.xfer data)
  else if op = 0x03 then .ok .csl
  else if op = 0x04 then .ok .csh
  else if op = 0x05 then .ok .rdsr
  else .error .illegalOpcode

/-- `decode(c)` of R62: the checks in its order, and the first that fails decides. No state changes how a word decodes (R64). -/
def decode (c : CmdWord) : Except CmdError Instr :=
  let f := Cmd32.ofWord c
  if !f.opLegal then .error .illegalOpcode
  else if !f.rsvZero then .error .reservedNonzero
  else if !f.dataAllowed then .error .reservedNonzero
  else selectCommand f.op f.data

/-- The command word whose low `nbits` bits are those of `w`; the bits above are 0. The port takes a word whole, so no byte
order enters (R45, R46; log 15). -/
def tableWord (nbits w : Nat) : CmdWord := (BitVec.ofNat nbits w).setWidth 32

/-- The command the decoder reads from a word numbered as the opcode table numbers it. A command is exactly 32 bits (R56, R64),
so more bits than that are no command. -/
def decodeTableWord (nbits w : Nat) : Option Instr :=
  if nbits ≤ 32 then (decode (tableWord nbits w)).toOption else none

/-- The word of three fields, OP highest (R12, R56): 8 + 8 + 16 bits are the 32 of a command word. -/
def Cmd32.toWord (f : Cmd32) : CmdWord := (f.op ++ f.rsv ++ f.data).setWidth 32

/-- The command word of a command (R58, R65). -/
def encode (i : Instr) : CmdWord := i.fields.toWord

end Sys2Proof
end

