-- ==== Sys2Proof/Config.lean ====
section
/-! DEFINITION. What an implementation fixes: the fixed parameters of R7 and R8, and the values the spec leaves open
(R9, R35), which have no body here, so that nothing can be proved of them. -/
namespace Sys2Proof

/-- `FRAME_BITS`: the bits of one frame (R7). -/
def Config.frameBits : Nat := 16

/-- `CMD_BITS`: the bits of a command word (R8). -/
def Config.cmdBits : Nat := 32

/-- `STATUS_BITS`: the bits of the status word (R8). -/
def Config.statusBits : Nat := 16

/-- `TX_DEPTH`: the words the transmit stage holds (R8). -/
def Config.txDepth : Nat := 1

/-- `T_BIT`, the serial clock period, in any unit of time (R9). No rule depends on it (log 10). -/
opaque Config.tBit : Nat

/-- `T_CSS`, the least time from CS_N falling to the first SCK rising edge (R9). No rule depends on it (log 10). -/
opaque Config.tCss : Nat

/-- `T_CSH`, the least time from the last SCK falling edge to CS_N rising (R9). No rule depends on it (log 10). -/
opaque Config.tCsh : Nat

/-- `T_CSW`, the least CS_N high time between two frames (R9, R99). No rule depends on it (log 10). -/
opaque Config.tCsw : Nat

/-- The level of MOSI outside the sampling edges, a FREE VALUE: "the model must treat it as any value" (R35, I6; log 11).
The argument numbers the moments at which the waveform shows it, so that two moments need not agree. -/
opaque Config.mosiOutside : Nat → Bool

end Sys2Proof
end

