-- ==== Sys2Proof/Machine/State.lean ====
section
/-! DEFINITION. The state of SPI16-MT (R17) as plain data, the reasons a step can stop, and the machine right after
power-on reset (R125). -/
namespace Sys2Proof.Machine

/-- PHASE: what the sequencer is doing (R19). -/
inductive Phase where
  /-- No command in progress: a command may be accepted. -/
  | idle
  /-- XFER waiting for the transmit stage to be empty. -/
  | xwt
  /-- XFER about to write the transmit stage. -/
  | xwr
  /-- XFER waiting for "not busy". -/
  | xwb
  deriving DecidableEq, Repr

/-- The 2-bit encoding of PHASE: IDLE=0, XWT=1, XWR=2, XWB=3 (R17, R19). -/
def Phase.code : Phase → BitVec 2
  | .idle => 0
  | .xwt  => 1
  | .xwr  => 2
  | .xwb  => 3

/-- The events of TRACE (R39). -/
inductive Event where
  /-- CS_N went 1 to 0. -/
  | csFall
  /-- CS_N went 0 to 1. -/
  | csRise
  /-- One SCK period with MOSI = `b` at the sampling edge. -/
  | bit (b : Bool)
  /-- A reset occurred. -/
  | reset
  /-- A command completed, with a 16-bit response (RDSR) or none. -/
  | done (r : Option Word)
  deriving DecidableEq, Repr

/-- The agents, each with its own steps (R117). -/
inductive Agent where
  /-- HOST, the issuer of commands. -/
  | host
  /-- SEQ, the sequencer. -/
  | seq
  /-- ENG, the serial engine. -/
  | eng
  /-- RST, the reset input. -/
  | rst
  deriving DecidableEq, Repr

/-- The state. The first eighteen fields are R17's complete list; the last three are the command port's offer (R57) and the
model's own record of what is outside the block. A one-bit field is a `Bool`, `true` for 1 (log 7). -/
@[ext]
structure State where
  /-- PHASE, the sequencer's phase (R19). -/
  phase   : Phase
  /-- XDATA, the word latched by an accepted XFER (R20). -/
  xdata   : Word
  /-- SPE, peripheral enabled (R21). -/
  spe     : Bool
  /-- MSTR, master mode (R22). -/
  mstr    : Bool
  /-- CPOL, clock polarity (R23). -/
  cpol    : Bool
  /-- CPHA, clock phase (R24). -/
  cpha    : Bool
  /-- LSBF, LSB-first bit order (R25). -/
  lsbf    : Bool
  /-- DS, data frame size minus one (R26). -/
  ds      : BitVec 4
  /-- HWSS, hardware slave-select pulse management (R27). -/
  hwss    : Bool
  /-- TXBUF, the transmit stage's data (R29). -/
  txbuf   : Word
  /-- TXFULL, the transmit stage holds a word (R29). -/
  txfull  : Bool
  /-- SHIFT, the shift register (R30). -/
  shift   : Word
  /-- SHACT, a word is being shifted out (R31). -/
  shact   : Bool
  /-- BITCNT, the bits of the current word already sent (R31). -/
  bitcnt  : BitVec 5
  /-- CS_N, the chip-select output's level: `false` is 0, asserted (R34). -/
  csN     : Bool
  /-- ERR, the sticky error flag (R37). -/
  err     : Bool
  /-- ERRCODE, the code of the first error since reset (R37). -/
  errcode : BitVec 2
  /-- TRACE, the events emitted so far, oldest first (R39). -/
  trace   : List Event
  /-- The word the host offers and the block has not accepted yet (R57, R124, R136). -/
  offer   : Option CmdWord
  /-- The words the host will offer next, in order: the host's own doing (R134; log 3). -/
  hostWords : List CmdWord
  /-- The agents that take the next steps, in order: any list, since the interleaving is free (R15, R108; log 2). -/
  turns   : List Agent
  deriving DecidableEq, Repr

/-- The reasons a step stops with a fault: NONE. A command error is recorded in ERR and ERRCODE and the block goes on (R104,
R111); the block has no trap (R104), no address to fault on (R42) and no other error (R106). An empty list of faults is safe
as far as these rules are right (log 5). -/
inductive Fault where
  deriving DecidableEq, Repr

/-- The reasons a step is refused. -/
inductive Refusal where
  /-- An instruction without a meaning yet: raised by `exec`'s arm alone. No arm raises it now. Safe: the machine stops. -/
  | notModelled (mnemonic : String)
  deriving DecidableEq, Repr

/-- The machine right after power-on reset (R125): every field of R17 at its reset value, TRACE = [RESET] (R39, R124). Nothing
is offered, and nothing is fixed about the host's next words or the order of steps (log 2, log 3). -/
def State.reset : State where
  phase     := .idle
  xdata     := 0x0000
  spe       := false
  mstr      := false
  cpol      := false
  cpha      := false
  lsbf      := false
  ds        := 0x0
  hwss      := false
  txbuf     := 0x0000
  txfull    := false
  shift     := 0x0000
  shact     := false
  bitcnt    := 0
  csN       := true
  err       := false
  errcode   := 0
  trace     := [.reset]
  offer     := none
  hostWords := []
  turns     := []

end Sys2Proof.Machine
end

