-- ==== Sys2Proof/Machine/Flags.lean ====
section
/-! DEFINITION. The flags that are read but not stored (R32, R33), and the status word that RDSR returns (R38). -/
namespace Sys2Proof.Machine

/-- TXE, transmit stage empty: `NOT S.TXFULL` (R32). -/
def State.txe (s : State) : Bool := !s.txfull

/-- BSY, busy: `S.TXFULL OR S.SHACT` (R33). -/
def State.bsy (s : State) : Bool := s.txfull || s.shact

/-- `STATUS(S)` (R38), from bit 15 down: ERRCODE, ERR, HWSS, DS, LSBF, CPHA, CPOL, MSTR, CSN, SPE, BSY, TXE. The order is R38's
TABLE; its line of pseudocode omits SPE, against the table and the words 0x0009 and 0x0F1D (DEDUCED, log 8). The widths
add up to the 16 of R8, so `setWidth` drops nothing. -/
def State.status (s : State) : Word :=
  (s.errcode ++ BitVec.ofBool s.err ++ BitVec.ofBool s.hwss ++ s.ds ++ BitVec.ofBool s.lsbf ++ BitVec.ofBool s.cpha
    ++ BitVec.ofBool s.cpol ++ BitVec.ofBool s.mstr ++ BitVec.ofBool s.csN ++ BitVec.ofBool s.spe ++ BitVec.ofBool s.bsy
    ++ BitVec.ofBool s.txe).setWidth 16

end Sys2Proof.Machine
end

