-- ==== Sys2Proof/Machine/Ops.lean ====
section
/-! DEFINITION. The named operations of the step rules: the primitives `emit` and `complete` (R14), acceptance of a command
(R57), a command error (R105), and the writes of the registers. There is no memory to operate on (R42). -/
namespace Sys2Proof.Machine

/-- `emit(e)`: append an event to TRACE (R14, R48). -/
def State.emit (e : Event) (s : State) : State := { s with trace := s.trace ++ [e] }

/-- `complete(r)`: deliver the completion of the current command with response `r` (R14, R43, R48). -/
def State.complete (r : Option Word) (s : State) : State := s.emit (.done r)

/-- Acceptance takes the offered word off the port (R57). -/
def State.takeOffer (s : State) : State := { s with offer := none }

/-- The HOST step of a command (R57): when PHASE = IDLE the word is accepted and `effect` is performed in the same step;
otherwise the offer is held and the state is unchanged (`hold`, R14). -/
def accept (effect : State → State) (s : State) : State :=
  if s.phase = .idle then effect s.takeOffer else s

/-- `raise CmdError(code)` (R105): the first error since reset is kept; the command completes with DONE(none); no other field
changes. This is the whole of what stands for taking an exception: nothing is saved and control goes nowhere (R104). -/
def raiseCmdError (e : CmdError) (s : State) : State :=
  State.complete none { s with err := true, errcode := if s.err then s.errcode else e.code }

/- Returning from an exception: the block has none. ERR and ERRCODE are cleared by reset alone (R110), see
`resetStep` in Machine/Reset.lean. -/

/-- The seven configuration writes of CFG, in one step (R70, R71). -/
def State.configure (s : State) : State :=
  { s with mstr := true, cpol := false, cpha := false, lsbf := false, ds := 0xF, hwss := false, spe := true }

/-- Latch XFER's word and start the sequencer (R76). -/
def State.latchWord (w : Word) (s : State) : State := { s with xdata := w, phase := .xwt }

/-- Drive the chip-select output; an event is emitted only when the level changes (R94, R95, R96). -/
def State.driveCs (level : Bool) (s : State) : State :=
  if s.csN = level then s else { s with csN := level }.emit (if level then .csRise else .csFall)

end Sys2Proof.Machine
end

