-- ==== Sys2Proof/Machine/ChipSelect.lean ====
section
/-! DEFINITION. The chip-select family: CSL and CSH (R93 to R99). -/
namespace Sys2Proof.Machine

/-- CSL, assert chip-select (R94): CS_FALL if the level changes, CS_N = 0, DONE(none). -/
def execCsl (s : State) : Host.Outcome State Fault Refusal :=
  .next (accept (fun t => (t.driveCs false).complete none) s)

/-- CSH, deassert chip-select (R95): CS_RISE if the level changes, CS_N = 1, DONE(none). -/
def execCsh (s : State) : Host.Outcome State Fault Refusal :=
  .next (accept (fun t => (t.driveCs true).complete none) s)

end Sys2Proof.Machine
end

