-- ==== Sys2Proof/Machine/Configure.lean ====
section
/-! DEFINITION. The configuration family: CFG (R69 to R73). -/
namespace Sys2Proof.Machine

/-- CFG, configure and enable (R70): all seven writes together (R71), then DONE(none). -/
def execCfg (s : State) : Host.Outcome State Fault Refusal :=
  .next (accept (fun t => t.configure.complete none) s)

end Sys2Proof.Machine
end

