-- ==== Sys2Proof/Machine/StatusRead.lean ====
section
/-! DEFINITION. The status family: RDSR (R100 to R103). -/
namespace Sys2Proof.Machine

/-- RDSR, read status (R101): DONE(STATUS) with the status word of the state before the step, and no other effect (R102). -/
def execRdsr (s : State) : Host.Outcome State Fault Refusal :=
  .next (accept (fun t => t.complete (some s.status)) s)

end Sys2Proof.Machine
end

