-- ==== Sys2Proof/Machine/Transfer.lean ====
section
/-! DEFINITION. The transfer family: XFER's acceptance (R76) and the sequencer's steps (R77 to R80). The engine's steps are in
Machine/Engine.lean. -/
namespace Sys2Proof.Machine

/-- XFER, its HOST step (R76): NOT_CONFIGURED when SPE = 0, else latch the word and leave IDLE without a DONE. SEQ and ENG do
the rest in steps of their own (R75). CS_N is not read (R89) and the word is not looked at (R90). -/
def execXfer (w : Word) (s : State) : Host.Outcome State Fault Refusal :=
  .next (accept (fun t => if t.spe then t.latchWord w else raiseCmdError .notConfigured t) s)

/-- XWR's write of the transmit stage (R79). -/
def State.fillStage (s : State) : State := { s with txbuf := s.xdata, txfull := true, phase := .xwb }

/-- A SEQ step: XWT (R77), XWR (R79), XWB (R80). A wait whose condition does not hold is a hold (R78), and in IDLE the
sequencer has no step. -/
def seqStep (s : State) : State :=
  match s.phase with
  | .idle => s
  | .xwt  => if s.txfull then s else { s with phase := .xwr }
  | .xwr  => s.fillStage
  | .xwb  => if s.bsy then s else { s with phase := .idle }.complete none

/-- A SEQ step is enabled (R77, R79, R80). -/
def seqReady (s : State) : Bool :=
  match s.phase with
  | .idle => false
  | .xwt  => !s.txfull
  | .xwr  => true
  | .xwb  => !s.bsy

end Sys2Proof.Machine
end

