-- ==== Sys2Proof/Machine/Dispatch.lean ====
section
/-! DEFINITION. One arm per command: each a direct call of its meaning. -/
namespace Sys2Proof.Machine

def exec (i : Instr) (s : State) : Host.Outcome State Fault Refusal :=
  match i with
  | .cfg => Sys2Proof.Machine.execCfg s
  | .xfer w => Sys2Proof.Machine.execXfer w s
  | .csl => Sys2Proof.Machine.execCsl s
  | .csh => Sys2Proof.Machine.execCsh s
  | .rdsr => Sys2Proof.Machine.execRdsr s

end Sys2Proof.Machine
end

