-- ==== Sys2Proof/Machine/Engine.lean ====
section
/-! DEFINITION. The serial engine ENG: LOAD (R83) and BIT (R84). It reads SPE, TXBUF, TXFULL, SHIFT, SHACT and BITCNT only (R82). -/
namespace Sys2Proof.Machine

/-- LOAD: the transmit stage goes to the shift register (R83). -/
def State.loadShift (s : State) : State := { s with shift := s.txbuf, txfull := false, shact := true, bitcnt := 0 }

/-- BIT: one SCK period (R84): SHIFT[15] goes out, SHIFT moves left by one, and the sixteenth bit ends the word. BITCNT is five
bits wide; in no state a run reaches does it wrap (R16, R87; log 4). -/
def State.shiftOut (s : State) : State :=
  { s with
    shift := s.shift <<< 1
    bitcnt := s.bitcnt + 1
    shact := if s.bitcnt + 1 = 16 then false else s.shact
    trace := s.trace ++ [.bit (s.shift.getLsbD 15)] }

/-- An ENG step: BIT while SHACT = 1 (R84), else LOAD when SPE = 1 and the stage holds a word (R83), else none. -/
def engStep (s : State) : State :=
  if s.shact then s.shiftOut
  else if s.spe && s.txfull then s.loadShift
  else s

/-- An ENG step is enabled (R83, R84). -/
def engReady (s : State) : Bool := s.shact || (s.spe && s.txfull)

end Sys2Proof.Machine
end

