-- ==== Sys2Proof/Machine/Reset.lean ====
section
/-! DEFINITION. The reset step of agent RST (R123, R124). -/
namespace Sys2Proof.Machine

/-- The events of a reset (R124): CS_RISE if chip-select was asserted, then RESET. -/
def resetEvents (s : State) : List Event := (if s.csN then [] else [.csRise]) ++ [.reset]

/-- The reset step (R124), enabled in any state: every field to its reset value, the events of a reset appended, no DONE for a
command in progress. An offer not yet accepted stays offered; what the host will do next, and the order of the
steps, are outside the block and stay. -/
def resetStep (s : State) : State :=
  { s with
    phase := .idle, xdata := 0x0000
    spe := false, mstr := false, cpol := false, cpha := false, lsbf := false, ds := 0x0, hwss := false
    txbuf := 0x0000, txfull := false
    shift := 0x0000, shact := false, bitcnt := 0
    csN := true
    err := false, errcode := 0
    trace := s.trace ++ resetEvents s }

end Sys2Proof.Machine
end

