-- ==== Sys2Proof/Machine/Agents.lean ====
section
/-! DEFINITION. The steps of the four agents (R117) and whose turn it is (R15, R108, R135). -/
namespace Sys2Proof.Machine

/-- The HOST step for an offered word (R57): the word is decoded and performed in the step that accepts it; a word that decodes
to no command raises its error (R63, R105). While PHASE is not IDLE the offer is held. -/
def acceptWord (c : CmdWord) (s : State) : Host.Outcome State Fault Refusal :=
  match decode c with
  | .ok i    => exec i s
  | .error e => .next (accept (raiseCmdError e) s)

/-- A HOST step: with an offer outstanding, its acceptance (R57); with none, the host offers its next word, if it has one (R134).
The host cannot withdraw or replace an offer (R57). A HOST step may put the next word on the port while an XFER is in progress,
before its DONE: there the offer is held (R57, R81, D23), where R134 has the host wait for DONE first (DESIGN CHOICE, log 17). -/
def hostStep (s : State) : Host.Outcome State Fault Refusal :=
  match s.offer, s.hostWords with
  | some c, _       => acceptWord c s
  | none,   []      => .next s
  | none,   c :: cs => .next { s with offer := some c, hostWords := cs }

/-- One step of one agent (R15, R117). An agent whose step is not enabled leaves the state as it is (`hold`, R14). -/
def agentStep (a : Agent) (s : State) : Host.Outcome State Fault Refusal :=
  match a with
  | .host => hostStep s
  | .seq  => .next (seqStep s)
  | .eng  => .next (engStep s)
  | .rst  => .next (resetStep s)

/-- An offered word can be accepted now (R57). -/
def acceptReady (s : State) : Bool := s.offer.isSome && decide (s.phase = .idle)

/-- Whose turn it is when TURNS is empty (DESIGN CHOICE, log 2): HOST if it can be accepted, else SEQ if enabled, else ENG if
enabled, else HOST, which offers its next word or waits. Weakly fair to SEQ and ENG (R135); reset never happens by itself. -/
def fairTurn (s : State) : Agent :=
  if acceptReady s then .host
  else if seqReady s then .seq
  else if engReady s then .eng
  else .host

/-- Whose turn it is: the first of TURNS, or the fair choice when there is none (R15, R108, R135). -/
def nextTurn (s : State) : Agent :=
  match s.turns with
  | []     => fairTurn s
  | a :: _ => a

/-- The turn is taken from TURNS. -/
def State.takeTurn (s : State) : State := { s with turns := s.turns.tail }

/-- One step of the machine: the agent whose turn it is takes its step (R15, R108). -/
def turnStep (s : State) : Host.Outcome State Fault Refusal := agentStep (nextTurn s) s.takeTurn

/-- The port offers `c` and the next turn is the host's, if the block can accept it (R57): no turn is left in TURNS, and the fair
choice gives the turn to an offer that can be accepted. -/
def State.withOffer (c : CmdWord) (s : State) : State := { s with offer := some c, turns := [] }

end Sys2Proof.Machine
end

