-- ==== Sys2Proof/Machine/Step.lean ====
section
/-! DEFINITION. The step of the machine, and how a word of the opcode table comes to be its next command. -/
namespace Sys2Proof.Machine

/-- One step: the agent whose turn it is takes its step (R15, R108). -/
def step (s : State) : Host.Outcome State Fault Refusal := turnStep s

/-- `s` with the command word `w` on the command port, where the block takes its next command from (R57); nothing is fetched
(R55). TURNS is emptied, so that in a state with PHASE = IDLE the very next step is its acceptance (log 1). -/
def State.withFetchWord (s : State) (nbits w : Nat) : State := s.withOffer (tableWord nbits w)

end Sys2Proof.Machine
end

