-- ==== Sys2Proof/Machine/Assembler.lean ====
section
/-! DEFINITION. The assembler of R65 to R68: lines of text to command words, with the pseudo-commands FRAME, DACWRITE and INIT and
the raw word `.word`. Text is a list of characters. What R65 leaves open of the text is fixed here (DESIGN CHOICE, log 12). -/
namespace Sys2Proof.Machine

/-- Why a line gives no word (R65). -/
inductive AsmError where
  /-- The first word of the line is no mnemonic. -/
  | unknownMnemonic
  /-- XFER, FRAME, DACWRITE or `.word` without its operand. -/
  | missingOperand
  /-- An operand on a mnemonic that takes none, or a second one. -/
  | extraOperand
  /-- The operand is no numeric literal, or lies outside 0 to 65535. -/
  | badLiteral
  deriving DecidableEq, Repr

/-- The mnemonics of R65 to R67. -/
inductive Mnemonic where
  | cfg | xfer | csl | csh | rdsr
  /-- FRAME and its other spelling DACWRITE (R66). -/
  | frame
  /-- INIT (R67). -/
  | init
  /-- The raw word (R65). -/
  | word
  deriving DecidableEq, Repr

/-- `FRAME w`: CSL, XFER w, CSH, in that order (R66). -/
def expandFrame (w : Word) : List Instr := [.csl, .xfer w, .csh]

/-- `INIT`: the single command CFG (R67). -/
def expandInit : List Instr := [.cfg]

/-- The spellings, in capitals. -/
def mnemonicTable : List (List Char × Mnemonic) :=
  [ (['C', 'F', 'G'], .cfg), (['X', 'F', 'E', 'R'], .xfer), (['C', 'S', 'L'], .csl), (['C', 'S', 'H'], .csh),
    (['R', 'D', 'S', 'R'], .rdsr), (['F', 'R', 'A', 'M', 'E'], .frame), (['D', 'A', 'C', 'W', 'R', 'I', 'T', 'E'], .frame),
    (['I', 'N', 'I', 'T'], .init), (['.', 'W', 'O', 'R', 'D'], .word) ]

/-- A mnemonic's meaning. Capitals and small letters are the same for the commands (R65); for FRAME, DACWRITE, INIT and `.word` the
spec does not say, and they are the same too (DESIGN CHOICE, log 12). -/
def mnemonicOf (cs : List Char) : Option Mnemonic :=
  (mnemonicTable.find? fun p => p.1 == cs.map Char.toUpper).map Prod.snd

/-- The value of a digit in a base up to 16. -/
def digitValue (c : Char) : Option Nat :=
  if '0' ≤ c ∧ c ≤ '9' then some (c.toNat - 48)
  else if 'a' ≤ c ∧ c ≤ 'f' then some (c.toNat - 87)
  else if 'A' ≤ c ∧ c ≤ 'F' then some (c.toNat - 55)
  else none

/-- The value of digits in a base, most significant first, `acc` being what stands before them. -/
def digitsValue (base : Nat) (acc : Nat) : List Char → Option Nat
  | []      => some acc
  | c :: cs =>
    match digitValue c with
    | some d => if d < base then digitsValue base (acc * base + d) cs else none
    | none   => none

/-- A numeric literal: decimal, `0x` hexadecimal or `0b` binary (R65), at least one digit. -/
def literalValue : List Char → Option Nat
  | []                    => none
  | '0' :: 'x' :: d :: ds => digitsValue 16 0 (d :: ds)
  | '0' :: 'b' :: d :: ds => digitsValue 2 0 (d :: ds)
  | d :: ds               => digitsValue 10 0 (d :: ds)

/-- XFER's operand: a literal from 0 to 65535 (R65). -/
def operandWord : List (List Char) → Except AsmError Word
  | []          => .error .missingOperand
  | _ :: _ :: _ => .error .extraOperand
  | [t] =>
    match literalValue t with
    | some n => if n < 65536 then .ok (BitVec.ofNat 16 n) else .error .badLiteral
    | none   => .error .badLiteral

/-- The operand of `.word`: `0x` and eight hexadecimal digits (R65). -/
def rawWord : List (List Char) → Except AsmError CmdWord
  | []          => .error .missingOperand
  | _ :: _ :: _ => .error .extraOperand
  | [t] =>
    match t with
    | '0' :: 'x' :: ds =>
      if ds.length = 8 then
        match digitsValue 16 0 ds with
        | some n => .ok (BitVec.ofNat 32 n)
        | none   => .error .badLiteral
      else .error .badLiteral
    | _ => .error .badLiteral

/-- A mnemonic that takes no operand. -/
def plainWords (is : List Instr) : List (List Char) → Except AsmError (List CmdWord)
  | []     => .ok (is.map encode)
  | _ :: _ => .error .extraOperand

/-- The words of one mnemonic with its operands (R65 to R67). -/
def assembleMnemonic (m : Mnemonic) (args : List (List Char)) : Except AsmError (List CmdWord) :=
  match m with
  | .cfg   => plainWords [.cfg] args
  | .xfer  => (operandWord args).map fun w => [encode (.xfer w)]
  | .csl   => plainWords [.csl] args
  | .csh   => plainWords [.csh] args
  | .rdsr  => plainWords [.rdsr] args
  | .frame => (operandWord args).map fun w => (expandFrame w).map encode
  | .init  => plainWords expandInit args
  | .word  => (rawWord args).map fun c => [c]

/-- White space inside a line (log 12). -/
def isBlank (c : Char) : Bool := c == ' ' || c == '\t' || c == '\r'

/-- Put a finished piece in front of the pieces after it; an empty one is dropped. -/
def consPiece (piece : List Char) (rest : List (List Char)) : List (List Char) :=
  if piece.isEmpty then rest else piece :: rest

/-- The non-empty pieces of a text between characters for which `cut` holds; `piece` is what stands before. -/
def pieces (cut : Char → Bool) (piece : List Char) : List Char → List (List Char)
  | []      => consPiece piece []
  | c :: cs => if cut c then consPiece piece (pieces cut [] cs) else pieces cut (piece ++ [c]) cs

/-- One line: text from `;` on is a comment (R65); a line with nothing else gives no word (log 12). -/
def assembleLine (line : List Char) : Except AsmError (List CmdWord) :=
  match pieces isBlank [] (line.takeWhile (· != ';')) with
  | []        => .ok []
  | m :: args =>
    match mnemonicOf m with
    | some k => assembleMnemonic k args
    | none   => .error .unknownMnemonic

/-- The words of lines, in order; one line in error and no word is produced (R65). -/
def assembleLines : List (List Char) → Except AsmError (List CmdWord)
  | []      => .ok []
  | l :: ls =>
    match assembleLine l, assembleLines ls with
    | .ok ws, .ok rest => .ok (ws ++ rest)
    | .ok _, .error e  => .error e
    | .error e, _      => .error e

/-- A source text, one command a line (R65). -/
def assemble (text : List Char) : Except AsmError (List CmdWord) :=
  assembleLines (pieces (· == '\n') [] text)

/-- The hexadecimal digit of four bits. -/
def hexDigit (n : Nat) : Char := if n < 10 then Char.ofNat (48 + n) else Char.ofNat (55 + n)

/-- The text of a command: its mnemonic, and for XFER its word as `0x` and four hexadecimal digits (R65). -/
def commandText : Instr → List Char
  | .cfg    => ['C', 'F', 'G']
  | .xfer w =>
    ['X', 'F', 'E', 'R', ' ', '0', 'x', hexDigit (w.toNat / 4096), hexDigit (w.toNat / 256 % 16),
      hexDigit (w.toNat / 16 % 16), hexDigit (w.toNat % 16)]
  | .csl    => ['C', 'S', 'L']
  | .csh    => ['C', 'S', 'H']
  | .rdsr   => ['R', 'D', 'S', 'R']

end Sys2Proof.Machine
end

