-- ==== Sys2Proof/Machine/Operands.lean ====
section
/-! DEFINITION. The one operand form: XFER's 16-bit word, taken as is (R60, R61), and the order in which its bits go on the
wire (R11, R44, R45). -/
namespace Sys2Proof.Machine

/-- The bits of a word in wire order: bit 15 first, bit 0 last (R11, R44). -/
def wireBits (w : Word) : List Bool := (List.range 16).map fun k => w.getLsbD (15 - k)

/-- The sixteen BIT events of one word (R86). -/
def bitEvents (w : Word) : List Event := (wireBits w).map Event.bit

/-- The bits of one byte, most significant first (R45). -/
def byteWireBits (b : BitVec 8) : List Bool := (List.range 8).map fun k => b.getLsbD (7 - k)

/-- `w[15:8]`, the byte that goes out first (R45). -/
def highByte (w : Word) : BitVec 8 := w.extractLsb' 8 8

/-- `w[7:0]`, the byte that goes out second (R45). -/
def lowByte (w : Word) : BitVec 8 := w.extractLsb' 0 8

end Sys2Proof.Machine
end

