-- ==== Sys2Proof/Machine/Wire.lean ====
section
/-! DEFINITION. What stands on the serial wire: the level of chip-select, frames (R49), and the mode-0 waveform of each event
(R35, R88). All are functions of the trace (R48); no step reads them. -/
namespace Sys2Proof.Machine

/-- The events of the response channel are not wire events (R43, R49). -/
def Event.onWire : Event → Bool
  | .done _ => false
  | .csFall | .csRise | .bit _ | .reset => true

/-- The wire events of a trace, DONE events left out (R49). -/
def wireEvents (tr : List Event) : List Event := tr.filter Event.onWire

/-- The level of CS_N after one event: CS_FALL lowers it, CS_RISE and RESET leave it high (R34, R39, R124). -/
def csAfter (level : Bool) : Event → Bool
  | .csFall => false
  | .csRise | .reset => true
  | .bit _ | .done _ => level

/-- The level of CS_N after a trace that begins with it high. -/
def csLevel (tr : List Event) : Bool := tr.foldl csAfter true

/-- The word of a window of bits, first bit highest (R49): its value if it has exactly sixteen bits. -/
def windowWord (bits : List Bool) : Option Word :=
  if bits.length = 16 then some (bits.foldl (fun w b => (w <<< 1) ||| (BitVec.ofBool b).setWidth 16) 0) else none

/-- Reading frames from wire events (R49). `win` holds the bits since the last CS_FALL, or is `none` when no window is open; only
a CS_RISE with exactly sixteen bits in the window ends a frame, and a RESET ends a window without one. -/
def framesFrom (win : Option (List Bool)) : List Event → List Word
  | [] => []
  | .csFall :: es => framesFrom (some []) es
  | .bit b :: es  => framesFrom (win.map (· ++ [b])) es
  | .csRise :: es => (win.bind windowWord).toList ++ framesFrom none es
  | .reset :: es  => framesFrom none es
  | .done _ :: es => framesFrom win es

/-- The words of the frames on the wire, in order (R49): what the slave receives. -/
def frames (tr : List Event) : List Word := framesFrom none tr

/-- The wire events of one frame of word `w` (R49). -/
def frameEvents (w : Word) : List Event := .csFall :: bitEvents w ++ [.csRise]

/-- The levels of the three outputs at one moment (R35, R43). -/
structure Pins where
  csN  : Bool
  sck  : Bool
  mosi : Bool
  deriving DecidableEq, Repr

/-- The moments one event shows on the outputs, at chip-select level `level` (R35, R88). A bit period in mode 0: SCK low with MOSI
set up, SCK high (the slave samples here), SCK low again with MOSI free to change. Outside the bit periods SCK is low and MOSI is a
free value; `n` numbers the event. The mode-0 meaning is marked general knowledge by the spec (PRESUMED there, G1 to G3; log 11). -/
def eventPins (n : Nat) (level : Bool) (e : Event) : List Pins :=
  match e with
  | .bit b  => [⟨level, false, b⟩, ⟨level, true, b⟩, ⟨level, false, Config.mosiOutside n⟩]
  | .done _ => []
  | .csFall => [⟨false, false, Config.mosiOutside n⟩]
  | .csRise => [⟨true, false, Config.mosiOutside n⟩]
  | .reset  => [⟨true, false, Config.mosiOutside n⟩]

/-- The outputs' levels over a trace, from chip-select level `level` and event number `n` (R35, R88). -/
def waveform (n : Nat) (level : Bool) : List Event → List Pins
  | []      => []
  | e :: es => eventPins n level e ++ waveform (n + 1) (csAfter level e) es

/-- What a mode-0 slave samples: MOSI at each rising edge of SCK (R24, R88), with the chip-select level it sees there. `sck` is SCK's
level before. -/
def sampled (sck : Bool) : List Pins → List (Bool × Bool)
  | []      => []
  | p :: ps => (if !sck && p.sck then [(p.csN, p.mosi)] else []) ++ sampled p.sck ps

/-- The bits of a trace, each with the level of chip-select when it was sent. -/
def sentBits (level : Bool) : List Event → List (Bool × Bool)
  | [] => []
  | .bit b :: es => (level, b) :: sentBits level es
  | e :: es => sentBits (csAfter level e) es

end Sys2Proof.Machine
end

