-- ==== Sys2Proof/Safety.lean ====
section
/-! DEFINITION. The terms in which claims about the machine are stated: faulted, quiescent and final (R111, R136), the
invariants of the spec (R28, R41, R87) made one inductive invariant, counting of completions (R51), and the payload-blind view
of a state (R90). -/
namespace Sys2Proof.Machine

/-- `n` steps of the machine from `s`, as the host runs it. -/
def runFor (n : Nat) (s : State) : Host.Outcome State Fault Refusal := Host.Core.run Sys2Proof.core n s

/-- A state with ERR = 1 is a faulted state (R111): the block goes on (R104), and a run that reaches it is never final (`runFinal`). -/
abbrev State.faulted (s : State) : Prop := s.err = true

/-- Quiescence (R136). It says nothing of ERR: a faulted state may be quiescent, and ends no final run. -/
abbrev State.quiescent (s : State) : Prop :=
  s.phase = .idle ∧ s.txfull = false ∧ s.shact = false ∧ s.offer = none

/-- The configuration fields hold what CFG writes while SPE = 1 (R28), and their reset values while SPE = 0 (R103). -/
abbrev State.configInv (s : State) : Prop :=
  s.mstr = s.spe ∧ s.cpol = false ∧ s.cpha = false ∧ s.lsbf = false ∧ s.ds = (if s.spe then 0xF else 0x0) ∧ s.hwss = false

/-- What the phase says of the transmit stage and the engine: in IDLE, XWT and XWR both are empty (R41, R77, R132); outside IDLE the
block is enabled (R76); in XWB the stage holds, or held, the word of the XFER (R79). -/
abbrev State.phaseInv (s : State) : Prop :=
  (s.phase ≠ .xwb → s.txfull = false ∧ s.shact = false) ∧
  (s.phase ≠ .idle → s.spe = true) ∧
  (s.phase = .xwb → s.txbuf = s.xdata) ∧
  (s.phase = .xwb → s.txfull = false → s.shact = false → s.bitcnt = 16)

/-- What the engine's fields say of each other (R31, R87): the stage is empty while a word is shifted out; the counter is 0 to 15
meanwhile, and 0 or 16 otherwise; the shift register holds what is left of the word, and nothing when the engine rests. -/
abbrev State.engineInv (s : State) : Prop :=
  ¬(s.txfull = true ∧ s.shact = true) ∧
  (s.shact = true → s.bitcnt.toNat < 16 ∧ s.shift = s.txbuf <<< s.bitcnt.toNat) ∧
  (s.shact = false → (s.bitcnt = 0 ∨ s.bitcnt = 16) ∧ s.shift = 0)

/-- ERR and ERRCODE tell the same story: a code is recorded exactly when an error is (R37, R105). -/
abbrev State.errorInv (s : State) : Prop := s.err = true ↔ s.errcode ≠ 0

/-- The trace tells the same story as the outputs: CS_N is at the level of the last chip-select event (R34, R39), and once the
engine has taken the word of an XFER, the trace ends in the bits of it that are out (R84, R86). -/
abbrev State.traceInv (s : State) : Prop :=
  csLevel s.trace = s.csN ∧
  (s.phase = .xwb → s.txfull = false → ((wireBits s.txbuf).take s.bitcnt.toNat).map Event.bit <:+ s.trace)

/-- The invariant of the machine. -/
abbrev State.inv (s : State) : Prop :=
  s.configInv ∧ s.phaseInv ∧ s.engineInv ∧ s.errorInv ∧ s.traceInv

/-- The completions in a trace (R51). -/
def completions (tr : List Event) : Nat := tr.countP fun e => !(e.onWire)

/-- The command in progress, as a number: 1 while PHASE is not IDLE (R50). -/
def State.inProgress (s : State) : Nat := if s.phase = .idle then 0 else 1

/-- The next step is the acceptance of an offered word (R57): it is HOST's turn, a word is offered, and PHASE = IDLE. -/
abbrev State.accepts (s : State) : Prop := nextTurn s = .host ∧ s.offer.isSome ∧ s.phase = .idle

/-- Some state of the run of `n` steps from `s`, its first and its last among them, satisfies `p`. -/
def someOnRun (p : State → Bool) : Nat → State → Bool
  | 0,     s => p s
  | n + 1, s => p s ||
    match step s with
    | .next t    => someOnRun p n t
    | .refused _ => false

/-- The run of `n` steps from `s` reaches a faulted state (R111), a reset after it or not (DEDUCED, log 5). -/
def runFaulted (n : Nat) (s : State) : Bool := someOnRun (fun u => u.err) n s

/-- A command of the host is accepted in this state, or in progress in it, so that its DONE is still to come (R51). -/
abbrev State.awaitsDone (s : State) : Prop := s.accepts ∨ s.phase ≠ .idle

/-- The run of `n` steps from `s`, ending in `t`, ends after its last command's DONE (R136): a DONE follows every state that awaits
one. A command that a reset cuts off gets none (R126), so the last command is not such a one; an earlier one may be, and a run with
no command passes (DEDUCED, log 5). -/
def runPastLastDone (n : Nat) (s t : State) : Bool :=
  !someOnRun (fun u => decide (u.awaitsDone ∧ completions t.trace ≤ completions u.trace)) n s

/-- The run of `n` steps from `s` is finished and ends in `t` (R136): `t` is quiescent, the host has no word left to offer (log 3),
and its last command's DONE is out (DEDUCED, log 5). -/
abbrev runFinished (n : Nat) (s t : State) : Prop :=
  runFor n s = .next t ∧ t.quiescent ∧ t.hostWords = [] ∧ runPastLastDone n s t = true

/-- The run of `n` steps from `s` is final and ends in `t`: it is finished (R136), and it is not faulted, since a faulted run is
never final (R111). -/
abbrev runFinal (n : Nat) (s t : State) : Prop := runFinished n s t ∧ runFaulted n s = false

/-- A command word with XFER's operand blotted out. -/
def blindWord (c : CmdWord) : CmdWord := if (Cmd32.ofWord c).op = 0x02 then c &&& 0xFFFF0000 else c

/-- A trace event with the value of a bit blotted out. -/
def blindEvent : Event → Event
  | .bit _ => .bit false
  | .csFall => .csFall
  | .csRise => .csRise
  | .reset => .reset
  | .done r => .done r

/-- A state with every trace of XFER's words blotted out (R90): two states with the same view differ in the payload alone. -/
def State.blind (s : State) : State :=
  { s with
    xdata := 0, txbuf := 0, shift := 0
    trace := s.trace.map blindEvent
    offer := s.offer.map blindWord
    hostWords := s.hostWords.map blindWord }

end Sys2Proof.Machine
end

