-- ==== Sys2Proof/Certificates/Slice0/Obligations.lean ====
section
/-! DEFINITION. The statements for the provers: what the numbered rules of spec/ say the machine does. Each docstring names its rules;
a statement that rests on a choice of the model says so and names the log entry. -/

open Sys2Proof Sys2Proof.Machine

/-! ## Encoding -/

/-- Decode and encode agree: every command is well formed, its word decodes to it, and so does that word read with the opcode
table's numbering. No bit of XFER's operand is dropped (R56, R58, R60, R65). -/
def Obligations.DecodeOfEncodeIsTheCommand : Prop :=
  ∀ i : Instr, i.wellFormed = true ∧ decode (encode i) = .ok i ∧ decodeTableWord 32 (encode i).toNat = some i

/-- The other direction: a word that decodes to a command is that command's one word (R56, R58, R63). -/
def Obligations.DecodedWordIsTheEncodedOne : Prop :=
  ∀ (c : CmdWord) (i : Instr), decode c = .ok i → encode i = c

/-- `decode` is R62's chain of checks, here over the word as a number: OP is `c / 2^24`, RSV is `c / 2^16 % 256`, DATA is
`c % 65536`. The check of SPE is not part of it: it comes after decoding, by XFER's own rule. -/
def Obligations.DecodeFollowsItsChecksInOrder : Prop :=
  (∀ c : CmdWord,
    let op := c.toNat / 16777216
    let rsv := c.toNat / 65536 % 256
    let dat := c.toNat % 65536
    decode c =
      if ¬(1 ≤ op ∧ op ≤ 5) then .error .illegalOpcode
      else if rsv ≠ 0 then .error .reservedNonzero
      else if op ≠ 2 ∧ dat ≠ 0 then .error .reservedNonzero
      else if op = 1 then .ok .cfg
      else if op = 2 then .ok (.xfer (BitVec.ofNat 16 dat))
      else if op = 3 then .ok .csl
      else if op = 4 then .ok .csh
      else .ok .rdsr) ∧
  (∀ (s : State) (w : Word), s.phase = .idle → s.spe = false →
    exec (.xfer w) s = .next (accept (raiseCmdError .notConfigured) s))

/-- The eighteen decoding vectors of 95_test_vectors.md section 2.1. -/
def Obligations.VectorWordsDecode : Prop :=
  decode 0x01000000 = .ok .cfg ∧ decode 0x02000000 = .ok (.xfer 0x0000) ∧ decode 0x0200FFFF = .ok (.xfer 0xFFFF) ∧
  decode 0x02003FFF = .ok (.xfer 0x3FFF) ∧ decode 0x03000000 = .ok .csl ∧ decode 0x04000000 = .ok .csh ∧
  decode 0x05000000 = .ok .rdsr ∧ decode 0x00000000 = .error .illegalOpcode ∧ decode 0x06000000 = .error .illegalOpcode ∧
  decode 0xFFFFFFFF = .error .illegalOpcode ∧ decode 0x00FF1234 = .error .illegalOpcode ∧
  decode 0x06FF0000 = .error .illegalOpcode ∧
  decode 0x02010000 = .error .reservedNonzero ∧ decode 0x02FF1234 = .error .reservedNonzero ∧
  decode 0x01000001 = .error .reservedNonzero ∧ decode 0x0300FFFF = .error .reservedNonzero ∧
  decode 0x04800000 = .error .reservedNonzero ∧ decode 0x05008000 = .error .reservedNonzero

/-- The words of the commands and of the pseudo-commands FRAME, DACWRITE and INIT (R65, R66, R67). That INIT may be written in small
letters is the model's choice (log 12). -/
def Obligations.PseudoCommandsExpandToTheirWords : Prop :=
  (∀ w : Word, (expandFrame w).map encode = [0x03000000, 0x02000000 ||| w.setWidth 32, 0x04000000]) ∧
  expandInit.map encode = [0x01000000] ∧ encode .rdsr = 0x05000000 ∧
  (∀ args : List (List Char), assembleMnemonic .frame args = (operandWord args).map fun w => (expandFrame w).map encode) ∧
  mnemonicOf ['F', 'R', 'A', 'M', 'E'] = some .frame ∧ mnemonicOf ['D', 'A', 'C', 'W', 'R', 'I', 'T', 'E'] = some .frame ∧
  assembleLine ['i', 'n', 'i', 't'] = .ok [0x01000000]

/-- The text of every command assembles to its word, whatever XFER's operand (R65). -/
def Obligations.PrintedCommandAssemblesToItsWord : Prop :=
  ∀ i : Instr, assembleLine (commandText i) = .ok [encode i]

/-- A word goes out as its high byte and then its low byte, each most significant bit first (R45). -/
def Obligations.WordGoesOutHighByteFirst : Prop :=
  ∀ w : Word, wireBits w = byteWireBits (highByte w) ++ byteWireBits (lowByte w)

/-! ## The step and the command port -/

/-- A step whose turn is HOST's, with a word offered, is `exec` of the command that the word decodes to, or the error it decodes
to, on the state with the turn taken (R57). -/
def Obligations.StepRunsTheDecodedCommand : Prop :=
  ∀ (s : State) (c : CmdWord), nextTurn s = .host → s.offer = some c →
    (∀ i, decode c = .ok i → step s = exec i s.takeTurn) ∧
    (∀ e, decode c = .error e → step s = .next (accept (raiseCmdError e) s.takeTurn))

/-- A word put on the port in a state with PHASE = IDLE is the next command (R57; the model's way of offering it, log 1). -/
def Obligations.WordAtThePortRunsNext : Prop :=
  ∀ (s : State) (nbits w : Nat) (i : Instr), s.phase = .idle → decodeTableWord nbits w = some i →
    step (s.withFetchWord nbits w) = exec i (s.withFetchWord nbits w)

/-- The command port (R57): while PHASE is not IDLE a HOST step holds the offer, which leaves the state as it is but for the turn (the
model's reading of the hold, log 6); in IDLE it accepts it, and takes no other word; no other step withdraws or replaces an
offer, reset among them (R124); with none outstanding HOST offers its next word. That the host's words stand in a list is the
model's choice (log 3), and so is that it may offer the next one outside IDLE, before the DONE of the command in progress
(log 17), where R134 has the host wait. -/
def Obligations.OfferIsHeldUntilItIsAccepted : Prop :=
  (∀ (s : State) (c : CmdWord), nextTurn s = .host → s.offer = some c → s.phase ≠ .idle → step s = .next s.takeTurn) ∧
  (∀ (s : State) (c : CmdWord), nextTurn s = .host → s.offer = some c → s.phase = .idle →
    ∃ t, step s = .next t ∧ t.offer = none ∧ t.hostWords = s.hostWords) ∧
  (∀ (s t : State) (c : CmdWord), step s = .next t → s.offer = some c → ¬s.accepts →
    t.offer = some c ∧ t.hostWords = s.hostWords) ∧
  (∀ s : State, nextTurn s = .host → s.offer = none →
    (∀ c cs, s.hostWords = c :: cs → step s = .next { s.takeTurn with offer := some c, hostWords := cs }) ∧
    (s.hostWords = [] → step s = .next s.takeTurn))

/-- The block has no trap: from every state whatever, a step answers a next state, whatever word is offered (R104). -/
def Obligations.NoStepStops : Prop :=
  ∀ s : State, ∃ t, step s = .next t

/-- Each accepted word leads to exactly one DONE, at once or when the command in progress ends; a reset completes nothing and ends
the command in progress (R51, R126). -/
def Obligations.EachAcceptedWordCompletesOnce : Prop :=
  ∀ s t : State, step s = .next t →
    (nextTurn s ≠ .rst →
      completions t.trace + t.inProgress = completions s.trace + s.inProgress + (if s.accepts then 1 else 0)) ∧
    (nextTurn s = .rst → completions t.trace = completions s.trace ∧ t.inProgress = 0)

/-- TRACE only grows, and by what one step may emit: a bit, a completion, or a chip-select event with what follows it (R39, R48,
R124). -/
def Obligations.TraceOnlyGrows : Prop :=
  ∀ s t : State, step s = .next t → ∃ es : List Event, t.trace = s.trace ++ es ∧
    (es = [] ∨ (∃ b, es = [.bit b]) ∨ (∃ r, es = [.done r]) ∨ es = [.csFall, .done none] ∨ es = [.csRise, .done none] ∨
      es = [.reset] ∨ es = [.csRise, .reset])

/-- The end of a run (R136): in a quiescent state with no word left to offer, no turn but reset's changes anything but
the turns. -/
def Obligations.QuiescentStateStaysAsItIs : Prop :=
  ∀ s : State, s.quiescent → s.hostWords = [] → nextTurn s ≠ .rst → step s = .next s.takeTurn

/-! ## The commands -/

/-- CFG (R70): its one word; its whole effect in IDLE; held otherwise (R57, R14; that `exec` leaves the state as it is outside
IDLE is the model's reading of the hold, log 6); the example. -/
def Obligations.CfgConfiguresAndEnables : Prop :=
  (∀ c : CmdWord, (decode c = .ok .cfg ↔ c = 0x01000000) ∧
    ((Cmd32.ofWord c).op = 0x01 → c ≠ 0x01000000 → decode c = .error .reservedNonzero)) ∧
  (∀ s : State, s.phase = .idle → exec .cfg s = .next
    { s with mstr := true, cpol := false, cpha := false, lsbf := false, ds := 0xF, hwss := false, spe := true, offer := none,
             trace := s.trace ++ [.done none] }) ∧
  (∀ s : State, s.phase ≠ .idle → exec .cfg s = .next s) ∧
  (∃ t, exec .cfg State.reset = .next t ∧ t.status = 0x0F1D ∧ t.trace = [.reset, .done none])

/-- CFG on a configured block changes no field but TRACE (R72). The premise is the invariant of R28, stated on its own below. -/
def Obligations.CfgTwiceIsCfgOnce : Prop :=
  ∀ s : State, s.phase = .idle → s.spe = true → s.configInv →
    exec .cfg s = .next { s with offer := none, trace := s.trace ++ [.done none] }

/-- XFER's acceptance (R76): with SPE = 1 the word is latched and the sequencer starts, with no DONE; with SPE = 0 NOT_CONFIGURED
is raised; while PHASE is not IDLE it is held (R57, R14; that `exec` leaves the state as it is outside IDLE is the model's reading
of the hold, log 6). -/
def Obligations.XferIsAcceptedOrRefused : Prop :=
  (∀ (s : State) (w : Word), s.phase = .idle → s.spe = true →
    exec (.xfer w) s = .next { s with xdata := w, phase := .xwt, offer := none }) ∧
  (∀ (s : State) (w : Word), s.phase = .idle → s.spe = false →
    exec (.xfer w) s = .next { s with err := true, errcode := if s.err then s.errcode else 3, offer := none,
                                      trace := s.trace ++ [.done none] }) ∧
  (∀ (s : State) (w : Word), s.phase ≠ .idle → exec (.xfer w) s = .next s)

/-- CSL (R94): its one word; its whole effect in IDLE, with CS_FALL only on a change of level; held otherwise (R57, R14; that
`exec` leaves the state as it is outside IDLE is the model's reading of the hold, log 6); the example. -/
def Obligations.CslAssertsChipSelect : Prop :=
  (∀ c : CmdWord, (decode c = .ok .csl ↔ c = 0x03000000) ∧
    ((Cmd32.ofWord c).op = 0x03 → c ≠ 0x03000000 → decode c = .error .reservedNonzero)) ∧
  (∀ s : State, s.phase = .idle → s.csN = true →
    exec .csl s = .next { s with csN := false, offer := none, trace := s.trace ++ [.csFall, .done none] }) ∧
  (∀ s : State, s.phase = .idle → s.csN = false →
    exec .csl s = .next { s with offer := none, trace := s.trace ++ [.done none] }) ∧
  (∀ s : State, s.phase ≠ .idle → exec .csl s = .next s) ∧
  (∃ t, exec .csl State.reset = .next t ∧ t.status = 0x0001 ∧ t.trace = [.reset, .csFall, .done none])

/-- CSH (R95): its one word; its whole effect in IDLE, with CS_RISE only on a change of level; held otherwise (R57, R14; that
`exec` leaves the state as it is outside IDLE is the model's reading of the hold, log 6); and, since it is performed in IDLE
alone, it never cuts a word short; the example, from the status word of an enabled and selected block. -/
def Obligations.CshDeassertsChipSelect : Prop :=
  (∀ c : CmdWord, (decode c = .ok .csh ↔ c = 0x04000000) ∧
    ((Cmd32.ofWord c).op = 0x04 → c ≠ 0x04000000 → decode c = .error .reservedNonzero)) ∧
  (∀ s : State, s.phase = .idle → s.csN = false →
    exec .csh s = .next { s with csN := true, offer := none, trace := s.trace ++ [.csRise, .done none] }) ∧
  (∀ s : State, s.phase = .idle → s.csN = true →
    exec .csh s = .next { s with offer := none, trace := s.trace ++ [.done none] }) ∧
  (∀ s : State, s.phase ≠ .idle → exec .csh s = .next s) ∧
  (∀ s : State, s.inv → s.phase = .idle → s.bsy = false) ∧
  (∀ s : State, s.phase = .idle → s.csN = false → s.status = 0x0F15 → ∃ t, exec .csh s = .next t ∧ t.status = 0x0F1D)

/-- CSL and CSH act on CS_N alone (R96, R47): whatever the level before, CSL leaves 0 and CSH leaves 1, and the second of two equal
commands changes nothing but TRACE; and they read no configuration field and no error: change those and their effect is the
same, with the change carried along. -/
def Obligations.ChipSelectCommandsAreIdempotent : Prop :=
  (∀ s t : State, s.phase = .idle →
    (exec .csl s = .next t →
      t.csN = false ∧ exec .csl t = .next { t with offer := none, trace := t.trace ++ [.done none] }) ∧
    (exec .csh s = .next t →
      t.csN = true ∧ exec .csh t = .next { t with offer := none, trace := t.trace ++ [.done none] })) ∧
  (∀ (s t : State) (i : Instr) (spe mstr cpol cpha lsbf hwss err : Bool) (ds : BitVec 4) (code : BitVec 2),
    (i = .csl ∨ i = .csh) → exec i s = .next t →
    exec i { s with spe := spe, mstr := mstr, cpol := cpol, cpha := cpha, lsbf := lsbf, ds := ds, hwss := hwss,
                    err := err, errcode := code } =
      .next { t with spe := spe, mstr := mstr, cpol := cpol, cpha := cpha, lsbf := lsbf, ds := ds, hwss := hwss,
                     err := err, errcode := code })

/-- RDSR (R101, R102): its one word; in IDLE it answers STATUS and changes no field but TRACE; held otherwise (R57, R14;
that `exec` leaves the state as it is outside IDLE is the model's reading of the hold, log 6); a bad word of its
opcode answers no status; the example. -/
def Obligations.RdsrAnswersTheStatus : Prop :=
  (∀ c : CmdWord, (decode c = .ok .rdsr ↔ c = 0x05000000) ∧
    ((Cmd32.ofWord c).op = 0x05 → c ≠ 0x05000000 → decode c = .error .reservedNonzero)) ∧
  (∀ s : State, s.phase = .idle →
    exec .rdsr s = .next { s with offer := none, trace := s.trace ++ [.done (some s.status)] }) ∧
  (∀ s : State, s.phase ≠ .idle → exec .rdsr s = .next s) ∧
  (∀ (s : State) (c : CmdWord), (Cmd32.ofWord c).op = 0x05 → c ≠ 0x05000000 → s.phase = .idle →
    ∃ t, acceptWord c s = .next t ∧ t.trace = s.trace ++ [.done none]) ∧
  (∃ t, exec .rdsr State.reset = .next t ∧ t.trace = [.reset, .done (some 0x0009)])

/-- The words RDSR can return (R103): TXE is 1 and BSY 0, the configuration bits follow SPE, and the error bits are one of the four
triples. Premise: the invariant, which every step keeps. -/
def Obligations.RdsrReturnsOneOfThePossibleWords : Prop :=
  ∀ s : State, s.inv → s.phase = .idle →
    ∃ (t : State) (v : Word) (e : Word), exec .rdsr s = .next t ∧ t.trace = s.trace ++ [.done (some v)] ∧
      (e = 0b000 ∨ e = 0b011 ∨ e = 0b101 ∨ e = 0b111) ∧
      v = (if s.spe then 0x0F15 else 0x0001) ||| ((BitVec.ofBool s.csN).setWidth 16 <<< 3) ||| (e <<< 13)

/-- The status word bit by bit, as the TABLE of R38 lays it out (its line of pseudocode omits SPE, log 8), with the two words it
gives. -/
def Obligations.StatusBitsFollowTheTable : Prop :=
  (∀ s : State,
    s.status.getLsbD 0 = !s.txfull ∧ s.status.getLsbD 1 = (s.txfull || s.shact) ∧ s.status.getLsbD 2 = s.spe ∧
    s.status.getLsbD 3 = s.csN ∧ s.status.getLsbD 4 = s.mstr ∧ s.status.getLsbD 5 = s.cpol ∧ s.status.getLsbD 6 = s.cpha ∧
    s.status.getLsbD 7 = s.lsbf ∧ s.status.extractLsb' 8 4 = s.ds ∧ s.status.getLsbD 12 = s.hwss ∧
    s.status.getLsbD 13 = s.err ∧ s.status.extractLsb' 14 2 = s.errcode) ∧
  State.reset.status = 0x0009 ∧ State.reset.configure.status = 0x0F1D

/-! ## Errors -/

/-- `raise CmdError(code)` (R105): a word that decodes to no command sets ERR, records its code if it is the first, completes with
DONE(none), and changes nothing else; while PHASE is not IDLE it is not accepted (R57, R14; that the state then stays as it is is the
model's reading of the hold, log 6). -/
def Obligations.ErroneousWordOnlyRecordsItsError : Prop :=
  ∀ (s : State) (c : CmdWord) (e : CmdError), decode c = .error e →
    (s.phase = .idle → acceptWord c s = .next
      { s with err := true, errcode := if s.err = false then e.code else s.errcode, offer := none,
               trace := s.trace ++ [.done none] }) ∧
    (s.phase ≠ .idle → acceptWord c s = .next s)

/-- One code per word, the first that applies (R107): ILLEGAL_OPCODE, then RESERVED_NONZERO, then NOT_CONFIGURED. -/
def Obligations.FirstApplicableErrorIsRaised : Prop :=
  ∀ (s : State) (c : CmdWord), s.phase = .idle → s.err = false → s.errcode = 0 →
    let f := Cmd32.ofWord c
    let code : BitVec 2 :=
      if f.op.toNat = 0 ∨ 5 < f.op.toNat then 1
      else if f.rsv ≠ 0 ∨ (f.op ≠ 0x02 ∧ f.data ≠ 0) then 2
      else if f.op = 0x02 ∧ s.spe = false then 3
      else 0
    ∃ t, acceptWord c s = .next t ∧ t.errcode = code ∧ (t.err = true ↔ code ≠ 0)

/-- ERR and ERRCODE are cleared by reset alone, and a later error does not overwrite the first code (R110). -/
def Obligations.OnlyResetClearsAnError : Prop :=
  ∀ s t : State, step s = .next t →
    (nextTurn s ≠ .rst → s.err = true → t.err = true ∧ t.errcode = s.errcode) ∧
    (nextTurn s = .rst → t.err = false ∧ t.errcode = 0)

/-- The block accepts commands as usual after an error (R104, R111): for every command but RDSR, which shows the error record, the
state it leaves does not depend on the record but for the record itself, which is kept. -/
def Obligations.CommandsRunAsUsualAfterAnError : Prop :=
  ∀ (s t : State) (i : Instr) (code : BitVec 2), i ≠ .rdsr → exec i s = .next t →
    exec i { s with err := true, errcode := code } = .next { t with err := true, errcode := code }

/-! ## What only some commands write -/

/-- CS_N is changed by CSL (to 0), by CSH (to 1) and by reset (to 1), and by nothing else; CFG and XFER, with the sequencer's and the
engine's steps of XFER, neither read nor write it; it is 1 after reset (R34). -/
def Obligations.OnlyChipSelectAndResetMoveTheLine : Prop :=
  (∀ s t : State, step s = .next t → t.csN ≠ s.csN →
    (nextTurn s = .rst ∧ t.csN = true) ∨
    (s.accepts ∧ s.offer = some 0x03000000 ∧ t.csN = false) ∨
    (s.accepts ∧ s.offer = some 0x04000000 ∧ t.csN = true)) ∧
  (∀ s t : State, step s = .next t →
    (s.accepts → s.offer = some 0x03000000 → t.csN = false) ∧ (s.accepts → s.offer = some 0x04000000 → t.csN = true) ∧
    (nextTurn s = .rst → t.csN = true)) ∧
  (∀ (s t : State) (i : Instr) (level : Bool), (i = .cfg ∨ ∃ w, i = .xfer w) → exec i s = .next t →
    t.csN = s.csN ∧ exec i { s with csN := level } = .next { t with csN := level }) ∧
  (∀ (s : State) (level : Bool),
    (seqStep s).csN = s.csN ∧ seqStep { s with csN := level } = { seqStep s with csN := level } ∧
    (engStep s).csN = s.csN ∧ engStep { s with csN := level } = { engStep s with csN := level }) ∧
  State.reset.csN = true

/-- The configuration fields are written by CFG and by reset, and by nothing else (R21 to R27). -/
def Obligations.OnlyCfgAndResetWriteTheConfiguration : Prop :=
  ∀ s t : State, step s = .next t → nextTurn s ≠ .rst → ¬(s.accepts ∧ s.offer = some 0x01000000) →
    t.spe = s.spe ∧ t.mstr = s.mstr ∧ t.cpol = s.cpol ∧ t.cpha = s.cpha ∧ t.lsbf = s.lsbf ∧ t.ds = s.ds ∧ t.hwss = s.hwss

/-! ## The sequencer and the engine -/

/-- The SEQ steps XWT, XWR and XWB with their holds (R77, R79, R80). Under the invariant the first wait passes at its first step,
and the second passes only when all sixteen bits are out. -/
def Obligations.SequencerStepsFollowTheirRules : Prop :=
  (∀ s : State, nextTurn s = .seq →
    (s.phase = .idle → step s = .next s.takeTurn) ∧
    (s.phase = .xwt → s.txfull = false → step s = .next { s.takeTurn with phase := .xwr }) ∧
    (s.phase = .xwt → s.txfull = true → step s = .next s.takeTurn) ∧
    (s.phase = .xwr → step s = .next { s.takeTurn with txbuf := s.xdata, txfull := true, phase := .xwb }) ∧
    (s.phase = .xwb → s.txfull = false → s.shact = false →
      step s = .next { s.takeTurn with phase := .idle, trace := s.trace ++ [.done none] }) ∧
    (s.phase = .xwb → (s.txfull = true ∨ s.shact = true) → step s = .next s.takeTurn)) ∧
  (∀ s : State, s.inv → s.phase = .xwt → s.txfull = false) ∧
  (∀ s : State, s.inv → s.phase = .xwb → s.txfull = false → s.shact = false → bitEvents s.txbuf <:+ s.trace)

/-- The ENG steps LOAD and BIT, and no step when neither is enabled (R83, R84). It speaks of every state; where SHACT = 1 and
BITCNT is 16 or more, which no run reaches, the sum in five bits is the model's reading of R84, log 4. -/
def Obligations.EngineStepsFollowTheirRules : Prop :=
  ∀ s : State, nextTurn s = .eng →
    (s.spe = true → s.txfull = true → s.shact = false →
      step s = .next { s.takeTurn with shift := s.txbuf, txfull := false, shact := true, bitcnt := 0 }) ∧
    (s.shact = true → s.bitcnt + 1 ≠ 16 →
      step s = .next { s.takeTurn with shift := s.shift <<< 1, bitcnt := s.bitcnt + 1,
                                       trace := s.trace ++ [.bit (s.shift.getLsbD 15)] }) ∧
    (s.shact = true → s.bitcnt + 1 = 16 →
      step s = .next { s.takeTurn with shift := s.shift <<< 1, bitcnt := 16, shact := false,
                                       trace := s.trace ++ [.bit (s.shift.getLsbD 15)] }) ∧
    (s.shact = false → (s.spe = false ∨ s.txfull = false) → step s = .next s.takeTurn)

/-- The engine reads only SPE, TXBUF, TXFULL, SHIFT, SHACT and BITCNT (R82): change any other field of the state, and its step is the
same, with the change carried along; to TRACE it appends what does not depend on the events before. -/
def Obligations.EngineReadsOnlyItsOwnFields : Prop :=
  ∀ s : State, ∃ es : List Event,
    ∀ (p : Phase) (x : Word) (mstr cpol cpha lsbf hwss level err : Bool) (ds : BitVec 4) (code : BitVec 2) (tr : List Event)
      (o : Option CmdWord) (ws : List CmdWord) (ts : List Agent),
      engStep { s with phase := p, xdata := x, mstr := mstr, cpol := cpol, cpha := cpha, lsbf := lsbf, ds := ds, hwss := hwss,
                       csN := level, err := err, errcode := code, trace := tr, offer := o, hostWords := ws, turns := ts } =
        { engStep s with phase := p, xdata := x, mstr := mstr, cpol := cpol, cpha := cpha, lsbf := lsbf, ds := ds, hwss := hwss,
                         csN := level, err := err, errcode := code, trace := tr ++ es, offer := o, hostWords := ws, turns := ts }

/-- The engine's arithmetic (R87): LOAD sets BITCNT to 0; while SHACT = 1 it is 0 to 15 and a BIT step adds exactly 1, so it never
wraps; SHACT falls exactly when it reaches 16, and SHIFT is then 0. -/
def Obligations.BitCounterNeverWraps : Prop :=
  (∀ s : State, s.spe = true → s.txfull = true → s.shact = false → (engStep s).bitcnt = 0) ∧
  (∀ s : State, s.inv → s.shact = true →
    s.bitcnt.toNat < 16 ∧ (engStep s).bitcnt.toNat = s.bitcnt.toNat + 1 ∧
    ((engStep s).shact = false ↔ (engStep s).bitcnt = 16) ∧ ((engStep s).shact = false → (engStep s).shift = 0)) ∧
  (∀ s : State, s.inv → s.phase = .xwb → s.txfull = false → s.shact = false → s.bitcnt = 16)

/-- From a full stage, one LOAD and sixteen BIT steps send the whole word, highest bit first, and leave the engine at rest (R83, R84,
R87). -/
def Obligations.SeventeenEngineStepsSendTheWord : Prop :=
  ∀ s : State, s.spe = true → s.txfull = true → s.shact = false →
    engStep^[17] s = { s with shift := 0, txfull := false, shact := false, bitcnt := 16,
                              trace := s.trace ++ bitEvents s.txbuf }

/-- The transmit stage is never overwritten: but for reset, TXBUF is written only by SEQ's XWR step, and then the stage is
empty (R132). -/
def Obligations.StageIsNeverOverwritten : Prop :=
  ∀ s t : State, s.inv → step s = .next t → t.txbuf ≠ s.txbuf → nextTurn s ≠ .rst →
    nextTurn s = .seq ∧ s.phase = .xwr ∧ s.txfull = false ∧ t.txbuf = s.xdata

/-- Chip-select is never deasserted before the word is out, but by reset (R131): when CS_N rises, no word is in the stage or in the
shift register. -/
def Obligations.ChipSelectNeverRisesUnderAWord : Prop :=
  ∀ s t : State, s.inv → step s = .next t → nextTurn s ≠ .rst → s.csN = false → t.csN = true →
    s.phase = .idle ∧ s.txfull = false ∧ s.shact = false

/-! ## Reset -/

/-- The reset step (R124): every field at its reset value, CS_RISE first if chip-select was asserted, then RESET, no DONE; an offer
not accepted stays offered. At power-on TRACE is [RESET]. -/
def Obligations.ResetPutsEveryFieldBack : Prop :=
  (∀ s : State, nextTurn s = .rst → step s = .next
    { State.reset with trace := s.trace ++ (if s.csN then [.reset] else [.csRise, .reset]), offer := s.offer,
                       hostWords := s.hostWords, turns := s.turns.tail }) ∧
  State.reset.trace = [.reset]

/-- The values after power-on reset (R125). -/
def Obligations.PowerOnValuesAreAsListed : Prop :=
  State.reset.phase = .idle ∧ State.reset.xdata = 0x0000 ∧ State.reset.spe = false ∧ State.reset.mstr = false ∧
  State.reset.cpol = false ∧ State.reset.cpha = false ∧ State.reset.lsbf = false ∧ State.reset.ds = 0x0 ∧
  State.reset.hwss = false ∧ State.reset.txbuf = 0x0000 ∧ State.reset.txfull = false ∧ State.reset.txe = true ∧
  State.reset.shift = 0x0000 ∧ State.reset.shact = false ∧ State.reset.bitcnt = 0 ∧ State.reset.bsy = false ∧
  State.reset.csN = true ∧ State.reset.err = false ∧ State.reset.errcode = 0 ∧ State.reset.status = 0x0009 ∧
  (∀ (n : Nat) (level : Bool), ∀ p ∈ waveform n level State.reset.trace, p.sck = false)

/-- A reset after `k` bits of an XFER: the wire shows those `k` bits and then what a reset emits, and the XFER gets no DONE
(R126). -/
def Obligations.ResetCutsATransferAfterItsBits : Prop :=
  ∀ s t : State, s.inv → s.phase = .xwb → s.txfull = false → nextTurn s = .rst → step s = .next t →
    ∃ before, t.trace = before ++ (bitEvents s.txbuf).take s.bitcnt.toNat ++ (if s.csN then [] else [.csRise]) ++ [.reset] ∧
      completions t.trace = completions s.trace

/-! ## Invariants -/

/-- The machine after reset meets the invariant. -/
def Obligations.ResetMeetsTheInvariant : Prop := State.reset.inv

/-- Every step of every agent keeps the invariant: the configuration is CFG's whenever the block is enabled (R28), stage and engine
are empty in IDLE (R41), counter and shift register tell how much of the word is out (R87), ERR goes with ERRCODE (R37), CS_N is
at the level of the last chip-select event (R34, R39), and the trace ends in the bits of the word in flight (R86). -/
def Obligations.EveryStepKeepsTheInvariant : Prop :=
  ∀ s t : State, s.inv → step s = .next t → t.inv

/-- R28 and R41 in every state that any host, any interleaving and any resets lead to from power-on. -/
def Obligations.EveryRunKeepsTheSpecsInvariants : Prop :=
  ∀ (words : List CmdWord) (turns : List Agent) (n : Nat) (t : State),
    runFor n { State.reset with hostWords := words, turns := turns } = .next t →
    (t.spe = true →
      t.mstr = true ∧ t.cpol = false ∧ t.cpha = false ∧ t.lsbf = false ∧ t.ds = 15 ∧ t.hwss = false) ∧
    (t.phase = .idle → t.txfull = false ∧ t.shact = false ∧ t.status.getLsbD 0 = true ∧ t.status.getLsbD 1 = false)

/-! ## Transfers and frames -/

/-- The wire image of one XFER (R86), under every interleaving: from its acceptance on, and until PHASE is IDLE again, the trace
gains the first bits of the word in order and nothing else; when PHASE is IDLE again it has gained exactly the sixteen bits and then
DONE(none).The error record stays as it is, so that ERR = 0 before gives ERR = 0 at the end (R111). -/
def Obligations.TransferSendsExactlyItsSixteenBits : Prop :=
  ∀ (s s₁ t : State) (w : Word) (n : Nat), s.inv → s.phase = .idle → s.spe = true → .rst ∉ s.turns →
    exec (.xfer w) s = .next s₁ → runFor n s₁ = .next t →
    (∀ m u, m < n → runFor m s₁ = .next u → u.phase ≠ .idle) →
    (t.phase = .idle → t.trace = s.trace ++ bitEvents w ++ [.done none]) ∧
    (t.phase ≠ .idle → ∃ k, k ≤ 16 ∧ t.trace = s.trace ++ (bitEvents w).take k) ∧
    t.err = s.err ∧ t.errcode = s.errcode

/-- Every accepted XFER completes, under every interleaving that is fair to SEQ and ENG (R86, R135): whatever finite list of turns
comes first, within its length and 21 more steps the word is out, and nothing but XDATA, TXBUF, SHIFT, BITCNT and TRACE has changed
in the block. That the turns after the list are fair is R135's assumption; which fair choice they follow is the model's (log 2). -/
def Obligations.EveryInterleavingCompletesTheTransfer : Prop :=
  ∀ (s : State) (w : Word), s.inv → s.phase = .idle → s.spe = true → s.offer = some (encode (.xfer w)) → .rst ∉ s.turns →
    ∃ n t, n ≤ s.turns.length + 21 ∧ runFor n s = .next t ∧
      t = { s with xdata := w, txbuf := w, shift := 0, bitcnt := 16, trace := s.trace ++ bitEvents w ++ [.done none],
                   offer := t.offer, hostWords := t.hostWords, turns := t.turns }

/-- `FRAME w` begun with CS_N = 1 on an enabled block puts exactly one frame of `w` on the wire, under every interleaving that is fair
to SEQ and ENG (R97, R135; the fair choice is the model's, log 2, and so is the list of the host's words, log 3). It raises no error,
so with ERR = 0 before and no word after it the run is final (R111, R136, as the model reads them, log 5). -/
def Obligations.FrameCommandSendsExactlyOneFrame : Prop :=
  ∀ (s : State) (w : Word) (rest : List CmdWord), s.inv → s.phase = .idle → s.spe = true → s.csN = true → s.offer = none →
    s.hostWords = (expandFrame w).map encode ++ rest → .rst ∉ s.turns →
    ∃ n t es, n ≤ s.turns.length + 26 ∧ runFor n s = .next t ∧ t.phase = .idle ∧ t.csN = true ∧ t.trace = s.trace ++ es ∧
      es = [.csFall, .done none] ++ bitEvents w ++ [.done none, .csRise, .done none] ∧
      wireEvents es = frameEvents w ∧ frames es = [w] ∧ t.err = s.err ∧ t.errcode = s.errcode ∧
      (s.err = false → rest = [] → runFinal n s t)

/-- `FRAME w` begun with CS_N = 0 emits no CS_FALL of its own: its bits join the window that is open (R98; the fair choice is the
model's, log 2, and so is the list of the host's words, log 3). It raises no error, so with ERR = 0 before and no word after it
the run is final (R111, R136, as the model reads them, log 5). -/
def Obligations.FrameInAnOpenWindowJoinsIt : Prop :=
  ∀ (s : State) (w : Word) (rest : List CmdWord), s.inv → s.phase = .idle → s.spe = true → s.csN = false → s.offer = none →
    s.hostWords = (expandFrame w).map encode ++ rest → .rst ∉ s.turns →
    ∃ n t, n ≤ s.turns.length + 26 ∧ runFor n s = .next t ∧ t.phase = .idle ∧ t.csN = true ∧
      t.trace = s.trace ++ [.done none] ++ bitEvents w ++ [.done none, .csRise, .done none] ∧
      t.err = s.err ∧ t.errcode = s.errcode ∧ (s.err = false → rest = [] → runFinal n s t)

/-- A word is among the frames of a trace exactly when the trace's wire events hold its frame as a contiguous segment: CS_FALL, its
sixteen bits highest first, CS_RISE (R49). -/
def Obligations.FramesAreTheContiguousSegments : Prop :=
  ∀ (tr : List Event) (w : Word),
    w ∈ frames tr ↔ ∃ before after, wireEvents tr = before ++ frameEvents w ++ after

/-- Sampling MOSI at the rising edges of the mode-0 waveform gives the bits of the trace, with the chip-select level at which each was
sent, whatever MOSI does between the edges (R24, R35, R88). -/
def Obligations.SlaveSamplesTheSentBits : Prop :=
  ∀ (tr : List Event) (n : Nat) (level : Bool), sampled false (waveform n level tr) = sentBits level tr

/-- The payload is opaque (R90): two states that differ only in payload words, and in the values of bits sent, take steps to states
that differ only in that; no flag, no phase and no error tells the words apart. -/
def Obligations.PayloadIsOpaque : Prop :=
  ∀ s s' t t' : State, s.blind = s'.blind → step s = .next t → step s' = .next t' → t.blind = t'.blind

/-- The accepted hang (R78, R112): as long as the engine takes no step, an XFER that waits for "not busy" goes on waiting, however
often HOST and SEQ have their turns. -/
def Obligations.StoppedEngineHangsTheTransfer : Prop :=
  ∀ (s : State) (ts rest : List Agent), s.phase = .xwb → s.bsy = true → s.turns = ts ++ rest →
    (∀ a ∈ ts, a = .host ∨ a = .seq) →
    ∃ t, runFor ts.length s = .next t ∧ t.phase = .xwb ∧ t.bsy = true ∧ t.trace = s.trace ∧ t.turns = rest

/-! ## Finished and final runs -/

/-- A run that reaches ERR = 1 is never final, whatever comes after, a reset included (R111); and a run without a reset is final
exactly when it is finished (R136) and ends with ERR = 0, since nothing but reset clears ERR (R110): the premise a claim about a
program takes. What a faulted, a finished and a final run are is the model's reading of R111 and R136 (log 5), and that a host with no
word left is an empty list is its choice (log 3). -/
def Obligations.FaultedRunsAreNeverFinal : Prop :=
  (∀ (m n : Nat) (s u t : State), m ≤ n → runFor m s = .next u → u.faulted → ¬runFinal n s t) ∧
  (∀ (n : Nat) (s t : State), .rst ∉ s.turns → (runFinal n s t ↔ runFinished n s t ∧ ¬t.faulted))

/-- A finished run ends after the host's last command's DONE (R136, as the model reads it, log 5): without a reset, a run to a
quiescent state with no word left is finished, whatever was in progress at its start, and so is one with no command at all, of
which R136 names no DONE; a run in which a reset cuts off a command, and after which no other is accepted, is not, since that
command never gets its DONE (R126). That a host with no word left is an empty list is the model's choice (log 3). -/
def Obligations.RunsFinishAfterTheLastDone : Prop :=
  (∀ (n : Nat) (s t : State), .rst ∉ s.turns → runFor n s = .next t → t.quiescent → t.hostWords = [] → runFinished n s t) ∧
  (∀ (n : Nat) (s t : State), s.phase ≠ .idle → nextTurn s = .rst →
    (∀ m u, 1 ≤ m → m ≤ n → runFor m s = .next u → ¬u.accepts) → ¬runFinished n s t)
end

