-- ==== Sys2Proof/Laws/Decode.lean ====
section
/-! SUPPORT. What decoding can answer, said once: the fields of a word that is a command's, and the cause of each error (R62). -/
namespace Sys2Proof

theorem Cmd32.opLegal_iff (f : Cmd32) :
    f.opLegal = true ↔ f.op = 0x01 ∨ f.op = 0x02 ∨ f.op = 0x03 ∨ f.op = 0x04 ∨ f.op = 0x05 := by
  simp [Cmd32.opLegal, or_assoc]

theorem Cmd32.dataAllowed_iff (f : Cmd32) : f.dataAllowed = true ↔ f.op = 0x02 ∨ f.data = 0 := by
  simp [Cmd32.dataAllowed]

theorem Cmd32.rsvZero_iff (f : Cmd32) : f.rsvZero = true ↔ f.rsv = 0 := by
  simp [Cmd32.rsvZero]

/-- The word of XFER as a number: `0x02000000 OR w` (R65), and the two share no bit. -/
theorem encode_xfer_toNat (w : Word) : (encode (.xfer w)).toNat = 33554432 + w.toNat := by
  have h : encode (.xfer w) = 512#16 ++ w := by
    simp [encode, Cmd32.toWord, Instr.fields, Instr.opcode, Instr.data]
  rw [h, BitVec.toNat_append, ← Nat.shiftLeft_add_eq_or_of_lt w.isLt, Nat.shiftLeft_eq]
  simp

/-- A legal OP names a command (R58): its opcode is that OP, and only XFER takes the data. -/
theorem selectCommand_cases {op : BitVec 8} {data : Word} {i : Instr} (h : selectCommand op data = .ok i) :
    op = i.opcode ∧ (i = .xfer data ∨ op ≠ 0x02) := by
  unfold selectCommand at h
  split at h
  · cases h; subst op; exact ⟨rfl, .inr (by decide)⟩
  split at h
  · cases h; subst op; exact ⟨rfl, .inl rfl⟩
  split at h
  · cases h; subst op; exact ⟨rfl, .inr (by decide)⟩
  split at h
  · cases h; subst op; exact ⟨rfl, .inr (by decide)⟩
  split at h
  · cases h; subst op; exact ⟨rfl, .inr (by decide)⟩
  · cases h

/-- Every legal OP names a command. -/
theorem selectCommand_ok {f : Cmd32} (h : f.opLegal = true) : ∃ i, selectCommand f.op f.data = .ok i := by
  rcases f.opLegal_iff.mp h with h | h | h | h | h <;> rw [h] <;> exact ⟨_, rfl⟩

/-- Everything `decode` can answer (R62): a command, when the fields are well formed, or the first check that fails. -/
theorem decode_cases (c : CmdWord) :
    ((Cmd32.ofWord c).wellFormed = true ∧ ∃ i, decode c = .ok i ∧ selectCommand (Cmd32.ofWord c).op (Cmd32.ofWord c).data = .ok i) ∨
    ((Cmd32.ofWord c).opLegal = false ∧ decode c = .error .illegalOpcode) ∨
    ((Cmd32.ofWord c).opLegal = true ∧ ((Cmd32.ofWord c).rsvZero = false ∨ (Cmd32.ofWord c).dataAllowed = false) ∧
      decode c = .error .reservedNonzero) := by
  unfold decode Cmd32.wellFormed
  cases h1 : (Cmd32.ofWord c).opLegal
  · simp [h1]
  cases h2 : (Cmd32.ofWord c).rsvZero
  · simp [h1, h2]
  cases h3 : (Cmd32.ofWord c).dataAllowed
  · simp [h1, h2, h3]
  · obtain ⟨i, hi⟩ := selectCommand_ok h1
    simp [h1, h2, h3, hi]

/-- Decoding never finds NOT_CONFIGURED: that check is XFER's own (R62, R76). -/
theorem decode_ne_notConfigured (c : CmdWord) : decode c ≠ .error .notConfigured := by
  rcases decode_cases c with ⟨-, i, h, -⟩ | ⟨-, h⟩ | ⟨-, -, h⟩ <;> rw [h] <;> simp

end Sys2Proof
end

