-- ==== Sys2Proof/Laws/State.lean ====
section
/-! SUPPORT. What each named update of the state leaves in each field: one lemma per field per update, true by unfolding the update once. -/
namespace Sys2Proof.Machine

/-! `State.emit` -/

@[simp] theorem State.emit_phase (e : Event) (s : State) : (s.emit e).phase = s.phase := rfl
@[simp] theorem State.emit_xdata (e : Event) (s : State) : (s.emit e).xdata = s.xdata := rfl
@[simp] theorem State.emit_spe (e : Event) (s : State) : (s.emit e).spe = s.spe := rfl
@[simp] theorem State.emit_mstr (e : Event) (s : State) : (s.emit e).mstr = s.mstr := rfl
@[simp] theorem State.emit_cpol (e : Event) (s : State) : (s.emit e).cpol = s.cpol := rfl
@[simp] theorem State.emit_cpha (e : Event) (s : State) : (s.emit e).cpha = s.cpha := rfl
@[simp] theorem State.emit_lsbf (e : Event) (s : State) : (s.emit e).lsbf = s.lsbf := rfl
@[simp] theorem State.emit_ds (e : Event) (s : State) : (s.emit e).ds = s.ds := rfl
@[simp] theorem State.emit_hwss (e : Event) (s : State) : (s.emit e).hwss = s.hwss := rfl
@[simp] theorem State.emit_txbuf (e : Event) (s : State) : (s.emit e).txbuf = s.txbuf := rfl
@[simp] theorem State.emit_txfull (e : Event) (s : State) : (s.emit e).txfull = s.txfull := rfl
@[simp] theorem State.emit_shift (e : Event) (s : State) : (s.emit e).shift = s.shift := rfl
@[simp] theorem State.emit_shact (e : Event) (s : State) : (s.emit e).shact = s.shact := rfl
@[simp] theorem State.emit_bitcnt (e : Event) (s : State) : (s.emit e).bitcnt = s.bitcnt := rfl
@[simp] theorem State.emit_csN (e : Event) (s : State) : (s.emit e).csN = s.csN := rfl
@[simp] theorem State.emit_err (e : Event) (s : State) : (s.emit e).err = s.err := rfl
@[simp] theorem State.emit_errcode (e : Event) (s : State) : (s.emit e).errcode = s.errcode := rfl
@[simp] theorem State.emit_trace (e : Event) (s : State) : (s.emit e).trace = s.trace ++ [e] := rfl
@[simp] theorem State.emit_offer (e : Event) (s : State) : (s.emit e).offer = s.offer := rfl
@[simp] theorem State.emit_hostWords (e : Event) (s : State) : (s.emit e).hostWords = s.hostWords := rfl
@[simp] theorem State.emit_turns (e : Event) (s : State) : (s.emit e).turns = s.turns := rfl

/-! `State.complete` -/

@[simp] theorem State.complete_phase (r : Option Word) (s : State) : (s.complete r).phase = s.phase := rfl
@[simp] theorem State.complete_xdata (r : Option Word) (s : State) : (s.complete r).xdata = s.xdata := rfl
@[simp] theorem State.complete_spe (r : Option Word) (s : State) : (s.complete r).spe = s.spe := rfl
@[simp] theorem State.complete_mstr (r : Option Word) (s : State) : (s.complete r).mstr = s.mstr := rfl
@[simp] theorem State.complete_cpol (r : Option Word) (s : State) : (s.complete r).cpol = s.cpol := rfl
@[simp] theorem State.complete_cpha (r : Option Word) (s : State) : (s.complete r).cpha = s.cpha := rfl
@[simp] theorem State.complete_lsbf (r : Option Word) (s : State) : (s.complete r).lsbf = s.lsbf := rfl
@[simp] theorem State.complete_ds (r : Option Word) (s : State) : (s.complete r).ds = s.ds := rfl
@[simp] theorem State.complete_hwss (r : Option Word) (s : State) : (s.complete r).hwss = s.hwss := rfl
@[simp] theorem State.complete_txbuf (r : Option Word) (s : State) : (s.complete r).txbuf = s.txbuf := rfl
@[simp] theorem State.complete_txfull (r : Option Word) (s : State) : (s.complete r).txfull = s.txfull := rfl
@[simp] theorem State.complete_shift (r : Option Word) (s : State) : (s.complete r).shift = s.shift := rfl
@[simp] theorem State.complete_shact (r : Option Word) (s : State) : (s.complete r).shact = s.shact := rfl
@[simp] theorem State.complete_bitcnt (r : Option Word) (s : State) : (s.complete r).bitcnt = s.bitcnt := rfl
@[simp] theorem State.complete_csN (r : Option Word) (s : State) : (s.complete r).csN = s.csN := rfl
@[simp] theorem State.complete_err (r : Option Word) (s : State) : (s.complete r).err = s.err := rfl
@[simp] theorem State.complete_errcode (r : Option Word) (s : State) : (s.complete r).errcode = s.errcode := rfl
@[simp] theorem State.complete_trace (r : Option Word) (s : State) : (s.complete r).trace = s.trace ++ [.done r] := rfl
@[simp] theorem State.complete_offer (r : Option Word) (s : State) : (s.complete r).offer = s.offer := rfl
@[simp] theorem State.complete_hostWords (r : Option Word) (s : State) : (s.complete r).hostWords = s.hostWords := rfl
@[simp] theorem State.complete_turns (r : Option Word) (s : State) : (s.complete r).turns = s.turns := rfl

/-! `State.takeOffer` -/

@[simp] theorem State.takeOffer_phase (s : State) : s.takeOffer.phase = s.phase := rfl
@[simp] theorem State.takeOffer_xdata (s : State) : s.takeOffer.xdata = s.xdata := rfl
@[simp] theorem State.takeOffer_spe (s : State) : s.takeOffer.spe = s.spe := rfl
@[simp] theorem State.takeOffer_mstr (s : State) : s.takeOffer.mstr = s.mstr := rfl
@[simp] theorem State.takeOffer_cpol (s : State) : s.takeOffer.cpol = s.cpol := rfl
@[simp] theorem State.takeOffer_cpha (s : State) : s.takeOffer.cpha = s.cpha := rfl
@[simp] theorem State.takeOffer_lsbf (s : State) : s.takeOffer.lsbf = s.lsbf := rfl
@[simp] theorem State.takeOffer_ds (s : State) : s.takeOffer.ds = s.ds := rfl
@[simp] theorem State.takeOffer_hwss (s : State) : s.takeOffer.hwss = s.hwss := rfl
@[simp] theorem State.takeOffer_txbuf (s : State) : s.takeOffer.txbuf = s.txbuf := rfl
@[simp] theorem State.takeOffer_txfull (s : State) : s.takeOffer.txfull = s.txfull := rfl
@[simp] theorem State.takeOffer_shift (s : State) : s.takeOffer.shift = s.shift := rfl
@[simp] theorem State.takeOffer_shact (s : State) : s.takeOffer.shact = s.shact := rfl
@[simp] theorem State.takeOffer_bitcnt (s : State) : s.takeOffer.bitcnt = s.bitcnt := rfl
@[simp] theorem State.takeOffer_csN (s : State) : s.takeOffer.csN = s.csN := rfl
@[simp] theorem State.takeOffer_err (s : State) : s.takeOffer.err = s.err := rfl
@[simp] theorem State.takeOffer_errcode (s : State) : s.takeOffer.errcode = s.errcode := rfl
@[simp] theorem State.takeOffer_trace (s : State) : s.takeOffer.trace = s.trace := rfl
@[simp] theorem State.takeOffer_offer (s : State) : s.takeOffer.offer = none := rfl
@[simp] theorem State.takeOffer_hostWords (s : State) : s.takeOffer.hostWords = s.hostWords := rfl
@[simp] theorem State.takeOffer_turns (s : State) : s.takeOffer.turns = s.turns := rfl

/-! `State.takeTurn` -/

@[simp] theorem State.takeTurn_phase (s : State) : s.takeTurn.phase = s.phase := rfl
@[simp] theorem State.takeTurn_xdata (s : State) : s.takeTurn.xdata = s.xdata := rfl
@[simp] theorem State.takeTurn_spe (s : State) : s.takeTurn.spe = s.spe := rfl
@[simp] theorem State.takeTurn_mstr (s : State) : s.takeTurn.mstr = s.mstr := rfl
@[simp] theorem State.takeTurn_cpol (s : State) : s.takeTurn.cpol = s.cpol := rfl
@[simp] theorem State.takeTurn_cpha (s : State) : s.takeTurn.cpha = s.cpha := rfl
@[simp] theorem State.takeTurn_lsbf (s : State) : s.takeTurn.lsbf = s.lsbf := rfl
@[simp] theorem State.takeTurn_ds (s : State) : s.takeTurn.ds = s.ds := rfl
@[simp] theorem State.takeTurn_hwss (s : State) : s.takeTurn.hwss = s.hwss := rfl
@[simp] theorem State.takeTurn_txbuf (s : State) : s.takeTurn.txbuf = s.txbuf := rfl
@[simp] theorem State.takeTurn_txfull (s : State) : s.takeTurn.txfull = s.txfull := rfl
@[simp] theorem State.takeTurn_shift (s : State) : s.takeTurn.shift = s.shift := rfl
@[simp] theorem State.takeTurn_shact (s : State) : s.takeTurn.shact = s.shact := rfl
@[simp] theorem State.takeTurn_bitcnt (s : State) : s.takeTurn.bitcnt = s.bitcnt := rfl
@[simp] theorem State.takeTurn_csN (s : State) : s.takeTurn.csN = s.csN := rfl
@[simp] theorem State.takeTurn_err (s : State) : s.takeTurn.err = s.err := rfl
@[simp] theorem State.takeTurn_errcode (s : State) : s.takeTurn.errcode = s.errcode := rfl
@[simp] theorem State.takeTurn_trace (s : State) : s.takeTurn.trace = s.trace := rfl
@[simp] theorem State.takeTurn_offer (s : State) : s.takeTurn.offer = s.offer := rfl
@[simp] theorem State.takeTurn_hostWords (s : State) : s.takeTurn.hostWords = s.hostWords := rfl
@[simp] theorem State.takeTurn_turns (s : State) : s.takeTurn.turns = s.turns.tail := rfl

/-! `State.withOffer` -/

@[simp] theorem State.withOffer_phase (c : CmdWord) (s : State) : (s.withOffer c).phase = s.phase := rfl
@[simp] theorem State.withOffer_xdata (c : CmdWord) (s : State) : (s.withOffer c).xdata = s.xdata := rfl
@[simp] theorem State.withOffer_spe (c : CmdWord) (s : State) : (s.withOffer c).spe = s.spe := rfl
@[simp] theorem State.withOffer_mstr (c : CmdWord) (s : State) : (s.withOffer c).mstr = s.mstr := rfl
@[simp] theorem State.withOffer_cpol (c : CmdWord) (s : State) : (s.withOffer c).cpol = s.cpol := rfl
@[simp] theorem State.withOffer_cpha (c : CmdWord) (s : State) : (s.withOffer c).cpha = s.cpha := rfl
@[simp] theorem State.withOffer_lsbf (c : CmdWord) (s : State) : (s.withOffer c).lsbf = s.lsbf := rfl
@[simp] theorem State.withOffer_ds (c : CmdWord) (s : State) : (s.withOffer c).ds = s.ds := rfl
@[simp] theorem State.withOffer_hwss (c : CmdWord) (s : State) : (s.withOffer c).hwss = s.hwss := rfl
@[simp] theorem State.withOffer_txbuf (c : CmdWord) (s : State) : (s.withOffer c).txbuf = s.txbuf := rfl
@[simp] theorem State.withOffer_txfull (c : CmdWord) (s : State) : (s.withOffer c).txfull = s.txfull := rfl
@[simp] theorem State.withOffer_shift (c : CmdWord) (s : State) : (s.withOffer c).shift = s.shift := rfl
@[simp] theorem State.withOffer_shact (c : CmdWord) (s : State) : (s.withOffer c).shact = s.shact := rfl
@[simp] theorem State.withOffer_bitcnt (c : CmdWord) (s : State) : (s.withOffer c).bitcnt = s.bitcnt := rfl
@[simp] theorem State.withOffer_csN (c : CmdWord) (s : State) : (s.withOffer c).csN = s.csN := rfl
@[simp] theorem State.withOffer_err (c : CmdWord) (s : State) : (s.withOffer c).err = s.err := rfl
@[simp] theorem State.withOffer_errcode (c : CmdWord) (s : State) : (s.withOffer c).errcode = s.errcode := rfl
@[simp] theorem State.withOffer_trace (c : CmdWord) (s : State) : (s.withOffer c).trace = s.trace := rfl
@[simp] theorem State.withOffer_offer (c : CmdWord) (s : State) : (s.withOffer c).offer = some c := rfl
@[simp] theorem State.withOffer_hostWords (c : CmdWord) (s : State) : (s.withOffer c).hostWords = s.hostWords := rfl
@[simp] theorem State.withOffer_turns (c : CmdWord) (s : State) : (s.withOffer c).turns = [] := rfl

/-! `State.configure` -/

@[simp] theorem State.configure_phase (s : State) : s.configure.phase = s.phase := rfl
@[simp] theorem State.configure_xdata (s : State) : s.configure.xdata = s.xdata := rfl
@[simp] theorem State.configure_spe (s : State) : s.configure.spe = true := rfl
@[simp] theorem State.configure_mstr (s : State) : s.configure.mstr = true := rfl
@[simp] theorem State.configure_cpol (s : State) : s.configure.cpol = false := rfl
@[simp] theorem State.configure_cpha (s : State) : s.configure.cpha = false := rfl
@[simp] theorem State.configure_lsbf (s : State) : s.configure.lsbf = false := rfl
@[simp] theorem State.configure_ds (s : State) : s.configure.ds = 0xF := rfl
@[simp] theorem State.configure_hwss (s : State) : s.configure.hwss = false := rfl
@[simp] theorem State.configure_txbuf (s : State) : s.configure.txbuf = s.txbuf := rfl
@[simp] theorem State.configure_txfull (s : State) : s.configure.txfull = s.txfull := rfl
@[simp] theorem State.configure_shift (s : State) : s.configure.shift = s.shift := rfl
@[simp] theorem State.configure_shact (s : State) : s.configure.shact = s.shact := rfl
@[simp] theorem State.configure_bitcnt (s : State) : s.configure.bitcnt = s.bitcnt := rfl
@[simp] theorem State.configure_csN (s : State) : s.configure.csN = s.csN := rfl
@[simp] theorem State.configure_err (s : State) : s.configure.err = s.err := rfl
@[simp] theorem State.configure_errcode (s : State) : s.configure.errcode = s.errcode := rfl
@[simp] theorem State.configure_trace (s : State) : s.configure.trace = s.trace := rfl
@[simp] theorem State.configure_offer (s : State) : s.configure.offer = s.offer := rfl
@[simp] theorem State.configure_hostWords (s : State) : s.configure.hostWords = s.hostWords := rfl
@[simp] theorem State.configure_turns (s : State) : s.configure.turns = s.turns := rfl

/-! `State.latchWord` -/

@[simp] theorem State.latchWord_phase (w : Word) (s : State) : (s.latchWord w).phase = .xwt := rfl
@[simp] theorem State.latchWord_xdata (w : Word) (s : State) : (s.latchWord w).xdata = w := rfl
@[simp] theorem State.latchWord_spe (w : Word) (s : State) : (s.latchWord w).spe = s.spe := rfl
@[simp] theorem State.latchWord_mstr (w : Word) (s : State) : (s.latchWord w).mstr = s.mstr := rfl
@[simp] theorem State.latchWord_cpol (w : Word) (s : State) : (s.latchWord w).cpol = s.cpol := rfl
@[simp] theorem State.latchWord_cpha (w : Word) (s : State) : (s.latchWord w).cpha = s.cpha := rfl
@[simp] theorem State.latchWord_lsbf (w : Word) (s : State) : (s.latchWord w).lsbf = s.lsbf := rfl
@[simp] theorem State.latchWord_ds (w : Word) (s : State) : (s.latchWord w).ds = s.ds := rfl
@[simp] theorem State.latchWord_hwss (w : Word) (s : State) : (s.latchWord w).hwss = s.hwss := rfl
@[simp] theorem State.latchWord_txbuf (w : Word) (s : State) : (s.latchWord w).txbuf = s.txbuf := rfl
@[simp] theorem State.latchWord_txfull (w : Word) (s : State) : (s.latchWord w).txfull = s.txfull := rfl
@[simp] theorem State.latchWord_shift (w : Word) (s : State) : (s.latchWord w).shift = s.shift := rfl
@[simp] theorem State.latchWord_shact (w : Word) (s : State) : (s.latchWord w).shact = s.shact := rfl
@[simp] theorem State.latchWord_bitcnt (w : Word) (s : State) : (s.latchWord w).bitcnt = s.bitcnt := rfl
@[simp] theorem State.latchWord_csN (w : Word) (s : State) : (s.latchWord w).csN = s.csN := rfl
@[simp] theorem State.latchWord_err (w : Word) (s : State) : (s.latchWord w).err = s.err := rfl
@[simp] theorem State.latchWord_errcode (w : Word) (s : State) : (s.latchWord w).errcode = s.errcode := rfl
@[simp] theorem State.latchWord_trace (w : Word) (s : State) : (s.latchWord w).trace = s.trace := rfl
@[simp] theorem State.latchWord_offer (w : Word) (s : State) : (s.latchWord w).offer = s.offer := rfl
@[simp] theorem State.latchWord_hostWords (w : Word) (s : State) : (s.latchWord w).hostWords = s.hostWords := rfl
@[simp] theorem State.latchWord_turns (w : Word) (s : State) : (s.latchWord w).turns = s.turns := rfl

/-! `State.fillStage` -/

@[simp] theorem State.fillStage_phase (s : State) : s.fillStage.phase = .xwb := rfl
@[simp] theorem State.fillStage_xdata (s : State) : s.fillStage.xdata = s.xdata := rfl
@[simp] theorem State.fillStage_spe (s : State) : s.fillStage.spe = s.spe := rfl
@[simp] theorem State.fillStage_mstr (s : State) : s.fillStage.mstr = s.mstr := rfl
@[simp] theorem State.fillStage_cpol (s : State) : s.fillStage.cpol = s.cpol := rfl
@[simp] theorem State.fillStage_cpha (s : State) : s.fillStage.cpha = s.cpha := rfl
@[simp] theorem State.fillStage_lsbf (s : State) : s.fillStage.lsbf = s.lsbf := rfl
@[simp] theorem State.fillStage_ds (s : State) : s.fillStage.ds = s.ds := rfl
@[simp] theorem State.fillStage_hwss (s : State) : s.fillStage.hwss = s.hwss := rfl
@[simp] theorem State.fillStage_txbuf (s : State) : s.fillStage.txbuf = s.xdata := rfl
@[simp] theorem State.fillStage_txfull (s : State) : s.fillStage.txfull = true := rfl
@[simp] theorem State.fillStage_shift (s : State) : s.fillStage.shift = s.shift := rfl
@[simp] theorem State.fillStage_shact (s : State) : s.fillStage.shact = s.shact := rfl
@[simp] theorem State.fillStage_bitcnt (s : State) : s.fillStage.bitcnt = s.bitcnt := rfl
@[simp] theorem State.fillStage_csN (s : State) : s.fillStage.csN = s.csN := rfl
@[simp] theorem State.fillStage_err (s : State) : s.fillStage.err = s.err := rfl
@[simp] theorem State.fillStage_errcode (s : State) : s.fillStage.errcode = s.errcode := rfl
@[simp] theorem State.fillStage_trace (s : State) : s.fillStage.trace = s.trace := rfl
@[simp] theorem State.fillStage_offer (s : State) : s.fillStage.offer = s.offer := rfl
@[simp] theorem State.fillStage_hostWords (s : State) : s.fillStage.hostWords = s.hostWords := rfl
@[simp] theorem State.fillStage_turns (s : State) : s.fillStage.turns = s.turns := rfl

/-! `State.loadShift` -/

@[simp] theorem State.loadShift_phase (s : State) : s.loadShift.phase = s.phase := rfl
@[simp] theorem State.loadShift_xdata (s : State) : s.loadShift.xdata = s.xdata := rfl
@[simp] theorem State.loadShift_spe (s : State) : s.loadShift.spe = s.spe := rfl
@[simp] theorem State.loadShift_mstr (s : State) : s.loadShift.mstr = s.mstr := rfl
@[simp] theorem State.loadShift_cpol (s : State) : s.loadShift.cpol = s.cpol := rfl
@[simp] theorem State.loadShift_cpha (s : State) : s.loadShift.cpha = s.cpha := rfl
@[simp] theorem State.loadShift_lsbf (s : State) : s.loadShift.lsbf = s.lsbf := rfl
@[simp] theorem State.loadShift_ds (s : State) : s.loadShift.ds = s.ds := rfl
@[simp] theorem State.loadShift_hwss (s : State) : s.loadShift.hwss = s.hwss := rfl
@[simp] theorem State.loadShift_txbuf (s : State) : s.loadShift.txbuf = s.txbuf := rfl
@[simp] theorem State.loadShift_txfull (s : State) : s.loadShift.txfull = false := rfl
@[simp] theorem State.loadShift_shift (s : State) : s.loadShift.shift = s.txbuf := rfl
@[simp] theorem State.loadShift_shact (s : State) : s.loadShift.shact = true := rfl
@[simp] theorem State.loadShift_bitcnt (s : State) : s.loadShift.bitcnt = 0 := rfl
@[simp] theorem State.loadShift_csN (s : State) : s.loadShift.csN = s.csN := rfl
@[simp] theorem State.loadShift_err (s : State) : s.loadShift.err = s.err := rfl
@[simp] theorem State.loadShift_errcode (s : State) : s.loadShift.errcode = s.errcode := rfl
@[simp] theorem State.loadShift_trace (s : State) : s.loadShift.trace = s.trace := rfl
@[simp] theorem State.loadShift_offer (s : State) : s.loadShift.offer = s.offer := rfl
@[simp] theorem State.loadShift_hostWords (s : State) : s.loadShift.hostWords = s.hostWords := rfl
@[simp] theorem State.loadShift_turns (s : State) : s.loadShift.turns = s.turns := rfl

/-! `State.shiftOut` -/

@[simp] theorem State.shiftOut_phase (s : State) : s.shiftOut.phase = s.phase := rfl
@[simp] theorem State.shiftOut_xdata (s : State) : s.shiftOut.xdata = s.xdata := rfl
@[simp] theorem State.shiftOut_spe (s : State) : s.shiftOut.spe = s.spe := rfl
@[simp] theorem State.shiftOut_mstr (s : State) : s.shiftOut.mstr = s.mstr := rfl
@[simp] theorem State.shiftOut_cpol (s : State) : s.shiftOut.cpol = s.cpol := rfl
@[simp] theorem State.shiftOut_cpha (s : State) : s.shiftOut.cpha = s.cpha := rfl
@[simp] theorem State.shiftOut_lsbf (s : State) : s.shiftOut.lsbf = s.lsbf := rfl
@[simp] theorem State.shiftOut_ds (s : State) : s.shiftOut.ds = s.ds := rfl
@[simp] theorem State.shiftOut_hwss (s : State) : s.shiftOut.hwss = s.hwss := rfl
@[simp] theorem State.shiftOut_txbuf (s : State) : s.shiftOut.txbuf = s.txbuf := rfl
@[simp] theorem State.shiftOut_txfull (s : State) : s.shiftOut.txfull = s.txfull := rfl
@[simp] theorem State.shiftOut_shift (s : State) : s.shiftOut.shift = s.shift <<< 1 := rfl
@[simp] theorem State.shiftOut_shact (s : State) : s.shiftOut.shact = if s.bitcnt + 1 = 16 then false else s.shact := rfl
@[simp] theorem State.shiftOut_bitcnt (s : State) : s.shiftOut.bitcnt = s.bitcnt + 1 := rfl
@[simp] theorem State.shiftOut_csN (s : State) : s.shiftOut.csN = s.csN := rfl
@[simp] theorem State.shiftOut_err (s : State) : s.shiftOut.err = s.err := rfl
@[simp] theorem State.shiftOut_errcode (s : State) : s.shiftOut.errcode = s.errcode := rfl
@[simp] theorem State.shiftOut_trace (s : State) : s.shiftOut.trace = s.trace ++ [.bit (s.shift.getLsbD 15)] := rfl
@[simp] theorem State.shiftOut_offer (s : State) : s.shiftOut.offer = s.offer := rfl
@[simp] theorem State.shiftOut_hostWords (s : State) : s.shiftOut.hostWords = s.hostWords := rfl
@[simp] theorem State.shiftOut_turns (s : State) : s.shiftOut.turns = s.turns := rfl

/-! `raiseCmdError` (R105) -/

@[simp] theorem raiseCmdError_phase (e : CmdError) (s : State) : (raiseCmdError e s).phase = s.phase := rfl
@[simp] theorem raiseCmdError_xdata (e : CmdError) (s : State) : (raiseCmdError e s).xdata = s.xdata := rfl
@[simp] theorem raiseCmdError_spe (e : CmdError) (s : State) : (raiseCmdError e s).spe = s.spe := rfl
@[simp] theorem raiseCmdError_mstr (e : CmdError) (s : State) : (raiseCmdError e s).mstr = s.mstr := rfl
@[simp] theorem raiseCmdError_cpol (e : CmdError) (s : State) : (raiseCmdError e s).cpol = s.cpol := rfl
@[simp] theorem raiseCmdError_cpha (e : CmdError) (s : State) : (raiseCmdError e s).cpha = s.cpha := rfl
@[simp] theorem raiseCmdError_lsbf (e : CmdError) (s : State) : (raiseCmdError e s).lsbf = s.lsbf := rfl
@[simp] theorem raiseCmdError_ds (e : CmdError) (s : State) : (raiseCmdError e s).ds = s.ds := rfl
@[simp] theorem raiseCmdError_hwss (e : CmdError) (s : State) : (raiseCmdError e s).hwss = s.hwss := rfl
@[simp] theorem raiseCmdError_txbuf (e : CmdError) (s : State) : (raiseCmdError e s).txbuf = s.txbuf := rfl
@[simp] theorem raiseCmdError_txfull (e : CmdError) (s : State) : (raiseCmdError e s).txfull = s.txfull := rfl
@[simp] theorem raiseCmdError_shift (e : CmdError) (s : State) : (raiseCmdError e s).shift = s.shift := rfl
@[simp] theorem raiseCmdError_shact (e : CmdError) (s : State) : (raiseCmdError e s).shact = s.shact := rfl
@[simp] theorem raiseCmdError_bitcnt (e : CmdError) (s : State) : (raiseCmdError e s).bitcnt = s.bitcnt := rfl
@[simp] theorem raiseCmdError_csN (e : CmdError) (s : State) : (raiseCmdError e s).csN = s.csN := rfl
@[simp] theorem raiseCmdError_err (e : CmdError) (s : State) : (raiseCmdError e s).err = true := rfl
@[simp] theorem raiseCmdError_errcode (e : CmdError) (s : State) : (raiseCmdError e s).errcode = if s.err then s.errcode else e.code := rfl
@[simp] theorem raiseCmdError_trace (e : CmdError) (s : State) : (raiseCmdError e s).trace = s.trace ++ [.done none] := rfl
@[simp] theorem raiseCmdError_offer (e : CmdError) (s : State) : (raiseCmdError e s).offer = s.offer := rfl
@[simp] theorem raiseCmdError_hostWords (e : CmdError) (s : State) : (raiseCmdError e s).hostWords = s.hostWords := rfl
@[simp] theorem raiseCmdError_turns (e : CmdError) (s : State) : (raiseCmdError e s).turns = s.turns := rfl

/-! `resetStep` (R124) -/

@[simp] theorem resetStep_phase (s : State) : (resetStep s).phase = .idle := rfl
@[simp] theorem resetStep_xdata (s : State) : (resetStep s).xdata = 0 := rfl
@[simp] theorem resetStep_spe (s : State) : (resetStep s).spe = false := rfl
@[simp] theorem resetStep_mstr (s : State) : (resetStep s).mstr = false := rfl
@[simp] theorem resetStep_cpol (s : State) : (resetStep s).cpol = false := rfl
@[simp] theorem resetStep_cpha (s : State) : (resetStep s).cpha = false := rfl
@[simp] theorem resetStep_lsbf (s : State) : (resetStep s).lsbf = false := rfl
@[simp] theorem resetStep_ds (s : State) : (resetStep s).ds = 0 := rfl
@[simp] theorem resetStep_hwss (s : State) : (resetStep s).hwss = false := rfl
@[simp] theorem resetStep_txbuf (s : State) : (resetStep s).txbuf = 0 := rfl
@[simp] theorem resetStep_txfull (s : State) : (resetStep s).txfull = false := rfl
@[simp] theorem resetStep_shift (s : State) : (resetStep s).shift = 0 := rfl
@[simp] theorem resetStep_shact (s : State) : (resetStep s).shact = false := rfl
@[simp] theorem resetStep_bitcnt (s : State) : (resetStep s).bitcnt = 0 := rfl
@[simp] theorem resetStep_csN (s : State) : (resetStep s).csN = true := rfl
@[simp] theorem resetStep_err (s : State) : (resetStep s).err = false := rfl
@[simp] theorem resetStep_errcode (s : State) : (resetStep s).errcode = 0 := rfl
@[simp] theorem resetStep_trace (s : State) : (resetStep s).trace = s.trace ++ resetEvents s := rfl
@[simp] theorem resetStep_offer (s : State) : (resetStep s).offer = s.offer := rfl
@[simp] theorem resetStep_hostWords (s : State) : (resetStep s).hostWords = s.hostWords := rfl
@[simp] theorem resetStep_turns (s : State) : (resetStep s).turns = s.turns := rfl

/-! `State.driveCs` (R94, R95, R96) -/

@[simp] theorem State.driveCs_phase (level : Bool) (s : State) :
    (s.driveCs level).phase = s.phase := by
  unfold State.driveCs; split <;> rfl
@[simp] theorem State.driveCs_xdata (level : Bool) (s : State) :
    (s.driveCs level).xdata = s.xdata := by
  unfold State.driveCs; split <;> rfl
@[simp] theorem State.driveCs_spe (level : Bool) (s : State) :
    (s.driveCs level).spe = s.spe := by
  unfold State.driveCs; split <;> rfl
@[simp] theorem State.driveCs_mstr (level : Bool) (s : State) :
    (s.driveCs level).mstr = s.mstr := by
  unfold State.driveCs; split <;> rfl
@[simp] theorem State.driveCs_cpol (level : Bool) (s : State) :
    (s.driveCs level).cpol = s.cpol := by
  unfold State.driveCs; split <;> rfl
@[simp] theorem State.driveCs_cpha (level : Bool) (s : State) :
    (s.driveCs level).cpha = s.cpha := by
  unfold State.driveCs; split <;> rfl
@[simp] theorem State.driveCs_lsbf (level : Bool) (s : State) :
    (s.driveCs level).lsbf = s.lsbf := by
  unfold State.driveCs; split <;> rfl
@[simp] theorem State.driveCs_ds (level : Bool) (s : State) :
    (s.driveCs level).ds = s.ds := by
  unfold State.driveCs; split <;> rfl
@[simp] theorem State.driveCs_hwss (level : Bool) (s : State) :
    (s.driveCs level).hwss = s.hwss := by
  unfold State.driveCs; split <;> rfl
@[simp] theorem State.driveCs_txbuf (level : Bool) (s : State) :
    (s.driveCs level).txbuf = s.txbuf := by
  unfold State.driveCs; split <;> rfl
@[simp] theorem State.driveCs_txfull (level : Bool) (s : State) :
    (s.driveCs level).txfull = s.txfull := by
  unfold State.driveCs; split <;> rfl
@[simp] theorem State.driveCs_shift (level : Bool) (s : State) :
    (s.driveCs level).shift = s.shift := by
  unfold State.driveCs; split <;> rfl
@[simp] theorem State.driveCs_shact (level : Bool) (s : State) :
    (s.driveCs level).shact = s.shact := by
  unfold State.driveCs; split <;> rfl
@[simp] theorem State.driveCs_bitcnt (level : Bool) (s : State) :
    (s.driveCs level).bitcnt = s.bitcnt := by
  unfold State.driveCs; split <;> rfl
@[simp] theorem State.driveCs_csN (level : Bool) (s : State) :
    (s.driveCs level).csN = level := by
  unfold State.driveCs; split <;> simp [*]
@[simp] theorem State.driveCs_err (level : Bool) (s : State) :
    (s.driveCs level).err = s.err := by
  unfold State.driveCs; split <;> rfl
@[simp] theorem State.driveCs_errcode (level : Bool) (s : State) :
    (s.driveCs level).errcode = s.errcode := by
  unfold State.driveCs; split <;> rfl
@[simp] theorem State.driveCs_trace (level : Bool) (s : State) :
    (s.driveCs level).trace = if s.csN = level then s.trace else s.trace ++ [if level then .csRise else .csFall] := by
  unfold State.driveCs; split <;> rfl
@[simp] theorem State.driveCs_offer (level : Bool) (s : State) :
    (s.driveCs level).offer = s.offer := by
  unfold State.driveCs; split <;> rfl
@[simp] theorem State.driveCs_hostWords (level : Bool) (s : State) :
    (s.driveCs level).hostWords = s.hostWords := by
  unfold State.driveCs; split <;> rfl
@[simp] theorem State.driveCs_turns (level : Bool) (s : State) :
    (s.driveCs level).turns = s.turns := by
  unfold State.driveCs; split <;> rfl

/-! The flags and the status word do not see the command port. -/

@[simp] theorem State.takeOffer_bsy (s : State) : s.takeOffer.bsy = s.bsy := rfl
@[simp] theorem State.takeTurn_bsy (s : State) : s.takeTurn.bsy = s.bsy := rfl
@[simp] theorem State.takeOffer_status (s : State) : s.takeOffer.status = s.status := rfl
@[simp] theorem State.takeTurn_status (s : State) : s.takeTurn.status = s.status := rfl
@[simp] theorem State.complete_bsy (r : Option Word) (s : State) : (s.complete r).bsy = s.bsy := rfl

theorem State.bsy_eq_false {s : State} : s.bsy = false ↔ s.txfull = false ∧ s.shact = false := by
  simp [State.bsy]

theorem State.bsy_eq_true {s : State} : s.bsy = true ↔ s.txfull = true ∨ s.shact = true := by
  simp [State.bsy]

end Sys2Proof.Machine
end

