-- ==== Sys2Proof/Laws/Ops.lean ====
section
/-! SUPPORT. Each shared operation's one lemma: everything it can do, so that no proof unfolds it again. -/
namespace Sys2Proof.Machine

/-- Acceptance (R57) does one of two things: in IDLE the effect on the state without its offer, elsewhere nothing. -/
theorem accept_cases (effect : State → State) (s : State) :
    (s.phase = .idle ∧ accept effect s = effect s.takeOffer) ∨ (s.phase ≠ .idle ∧ accept effect s = s) := by
  unfold accept
  split
  · exact .inl ⟨‹_›, rfl⟩
  · exact .inr ⟨‹_›, rfl⟩

@[simp] theorem accept_idle {effect : State → State} {s : State} (h : s.phase = .idle) :
    accept effect s = effect s.takeOffer := by
  simp [accept, h]

@[simp] theorem accept_busy {effect : State → State} {s : State} (h : s.phase ≠ .idle) : accept effect s = s := by
  simp [accept, h]

/-- What the HOST step of a command does to the state without its offer (R70, R76, R94, R95, R101). -/
def effectOf : Instr → State → State
  | .cfg,    t => t.configure.complete none
  | .xfer w, t => if t.spe then t.latchWord w else raiseCmdError .notConfigured t
  | .csl,    t => (t.driveCs false).complete none
  | .csh,    t => (t.driveCs true).complete none
  | .rdsr,   t => t.complete (some t.status)

/-- Every command's meaning is the acceptance of its effect, and a next state. -/
theorem exec_eq (i : Instr) (s : State) : exec i s = .next (accept (effectOf i) s) := by
  cases i <;> rfl

/-- What the HOST step of a word does: its command's effect, or its error (R57, R63, R105). -/
def effectOfWord (c : CmdWord) : State → State :=
  match decode c with
  | .ok i    => effectOf i
  | .error e => raiseCmdError e

theorem acceptWord_eq (c : CmdWord) (s : State) : acceptWord c s = .next (accept (effectOfWord c) s) := by
  unfold acceptWord effectOfWord
  cases decode c with
  | ok i => exact exec_eq i s
  | error e => rfl

/-- A HOST step (R57, R134) accepts the offer, holds it, offers the next word, or has nothing to do. -/
theorem hostStep_cases (s : State) :
    (∃ c, s.offer = some c ∧ s.phase = .idle ∧ hostStep s = .next (effectOfWord c s.takeOffer)) ∨
    (∃ c, s.offer = some c ∧ s.phase ≠ .idle ∧ hostStep s = .next s) ∨
    (∃ c cs, s.offer = none ∧ s.hostWords = c :: cs ∧ hostStep s = .next { s with offer := some c, hostWords := cs }) ∨
    (s.offer = none ∧ s.hostWords = [] ∧ hostStep s = .next s) := by
  unfold hostStep
  split
  · next c h =>
      rcases accept_cases (effectOfWord c) s with ⟨hp, ha⟩ | ⟨hp, ha⟩
      · exact .inl ⟨c, h, hp, by rw [acceptWord_eq, ha]⟩
      · exact .inr (.inl ⟨c, h, hp, by rw [acceptWord_eq, ha]⟩)
  · next h h' => exact .inr (.inr (.inr ⟨h, h', rfl⟩))
  · next c cs h h' => exact .inr (.inr (.inl ⟨c, cs, h, h', rfl⟩))

/-- A SEQ step (R77, R79, R80) leaves XWT, writes the stage, completes the transfer, or holds. -/
theorem seqStep_cases (s : State) :
    (s.phase = .xwt ∧ s.txfull = false ∧ seqStep s = { s with phase := .xwr }) ∨
    (s.phase = .xwr ∧ seqStep s = s.fillStage) ∨
    (s.phase = .xwb ∧ s.bsy = false ∧ seqStep s = { s with phase := .idle }.complete none) ∨
    (seqReady s = false ∧ seqStep s = s) := by
  unfold seqStep seqReady
  cases s.phase with
  | idle => simp
  | xwt => cases s.txfull <;> simp
  | xwr => simp
  | xwb => cases s.bsy <;> simp

/-- An ENG step (R83, R84) sends a bit, loads a word, or does nothing. -/
theorem engStep_cases (s : State) :
    (s.shact = true ∧ engStep s = s.shiftOut) ∨
    (s.shact = false ∧ s.spe = true ∧ s.txfull = true ∧ engStep s = s.loadShift) ∨
    (engReady s = false ∧ engStep s = s) := by
  unfold engStep engReady
  cases s.shact
  · cases s.spe
    · simp
    · cases s.txfull <;> simp
  · simp

/-- Chip-select (R94 to R96): nothing when the level is already there, else the level and its event. -/
theorem driveCs_cases (level : Bool) (s : State) :
    (s.csN = level ∧ s.driveCs level = s) ∨
    (s.csN ≠ level ∧ s.driveCs level = { s with csN := level }.emit (if level then .csRise else .csFall)) := by
  unfold State.driveCs
  split
  · exact .inl ⟨‹_›, rfl⟩
  · exact .inr ⟨‹_›, rfl⟩

end Sys2Proof.Machine
end

