-- ==== Sys2Proof/Laws/PerInstr.lean ====
section
/-! SUPPORT. Statements about every command, one lemma per constructor. -/

/-- A command's fields pass every check of the format, with RSV zero and the opcode of R58; and its encoding is within the row's
32 bits with OP in its highest byte. -/
def Sys2Proof.Laws.FieldsLegal.Statement (i : Sys2Proof.Instr) : Prop :=
  i.wellFormed = true ∧ i.fields.rsv = 0 ∧ i.fields.op = i.opcode ∧ (Sys2Proof.encode i).toNat / 16777216 = i.opcode.toNat

theorem Sys2Proof.Laws.FieldsLegal.cfg : Sys2Proof.Laws.FieldsLegal.Statement .cfg := by
  refine ⟨?_, ?_, ?_, ?_⟩ <;> decide

theorem Sys2Proof.Laws.FieldsLegal.xfer (w : Sys2Proof.Word) : Sys2Proof.Laws.FieldsLegal.Statement (.xfer w) := by
  refine ⟨rfl, rfl, rfl, ?_⟩
  rw [Sys2Proof.encode_xfer_toNat]
  have h := w.isLt
  show (33554432 + w.toNat) / 16777216 = 2
  omega

theorem Sys2Proof.Laws.FieldsLegal.csl : Sys2Proof.Laws.FieldsLegal.Statement .csl := by
  refine ⟨?_, ?_, ?_, ?_⟩ <;> decide

theorem Sys2Proof.Laws.FieldsLegal.csh : Sys2Proof.Laws.FieldsLegal.Statement .csh := by
  refine ⟨?_, ?_, ?_, ?_⟩ <;> decide

theorem Sys2Proof.Laws.FieldsLegal.rdsr : Sys2Proof.Laws.FieldsLegal.Statement .rdsr := by
  refine ⟨?_, ?_, ?_, ?_⟩ <;> decide
end

