-- ==== Sys2Proof/Laws/Step.lean ====
section
/-! SUPPORT. The step's inversion lemma (everything one step can do), and running one step more. -/
namespace Sys2Proof.Machine

@[simp] theorem takeTurn_of_nil {s : State} (h : s.turns = []) : s.takeTurn = s := by
  cases s; simp_all [State.takeTurn]

/-- Whose turn it is, by TURNS. -/
theorem nextTurn_cons {s : State} {a : Agent} {as : List Agent} (h : s.turns = a :: as) : nextTurn s = a := by
  simp [nextTurn, h]

theorem nextTurn_nil {s : State} (h : s.turns = []) : nextTurn s = fairTurn s := by
  simp [nextTurn, h]

/-- Reset has its turn only where TURNS says so (R123; log 2). -/
theorem fairTurn_ne_rst (s : State) : fairTurn s ≠ .rst := by
  unfold fairTurn
  split
  · simp
  split
  · simp
  split <;> simp

theorem nextTurn_ne_rst {s : State} (h : Agent.rst ∉ s.turns) : nextTurn s ≠ .rst := by
  cases ht : s.turns with
  | nil => rw [nextTurn_nil ht]; exact fairTurn_ne_rst s
  | cons a as =>
    rw [nextTurn_cons ht]
    rintro rfl
    simp [ht] at h

/-- A step is the step of the agent whose turn it is (R15). -/
theorem step_eq (s : State) : step s = agentStep (nextTurn s) s.takeTurn := rfl

/-- Everything one step can do (R15, R57, R77 to R84, R124). -/
theorem step_cases {s t : State} (h : step s = .next t) :
    (nextTurn s = .host ∧ ∃ c, s.offer = some c ∧ s.phase = .idle ∧ t = effectOfWord c s.takeTurn.takeOffer) ∨
    (nextTurn s = .host ∧ ∃ c cs, s.offer = none ∧ s.hostWords = c :: cs ∧
      t = { s.takeTurn with offer := some c, hostWords := cs }) ∨
    (nextTurn s = .seq ∧ s.phase = .xwt ∧ s.txfull = false ∧ t = { s.takeTurn with phase := .xwr }) ∨
    (nextTurn s = .seq ∧ s.phase = .xwr ∧ t = s.takeTurn.fillStage) ∨
    (nextTurn s = .seq ∧ s.phase = .xwb ∧ s.bsy = false ∧ t = { s.takeTurn with phase := .idle }.complete none) ∨
    (nextTurn s = .eng ∧ s.shact = true ∧ t = s.takeTurn.shiftOut) ∨
    (nextTurn s = .eng ∧ s.shact = false ∧ s.spe = true ∧ s.txfull = true ∧ t = s.takeTurn.loadShift) ∨
    (nextTurn s = .rst ∧ t = resetStep s.takeTurn) ∨
    (nextTurn s ≠ .rst ∧ (nextTurn s = .host → s.offer.isSome → s.phase ≠ .idle) ∧ t = s.takeTurn) := by
  rw [step_eq] at h
  cases ha : nextTurn s with
  | host =>
    rw [ha] at h
    rcases hostStep_cases s.takeTurn with ⟨c, h1, h2, h3⟩ | ⟨c, h1, h2, h3⟩ | ⟨c, cs, h1, h2, h3⟩ | ⟨h1, h2, h3⟩ <;>
      (simp only [agentStep, h3, Host.Outcome.next.injEq] at h; subst h)
    · exact .inl ⟨rfl, c, h1, h2, rfl⟩
    · simp at h2; simp [h2]
    · exact .inr (.inl ⟨rfl, c, cs, h1, h2, rfl⟩)
    · simp at h1; simp [h1]
  | seq =>
    rw [ha] at h
    simp only [agentStep, Host.Outcome.next.injEq] at h
    rcases seqStep_cases s.takeTurn with ⟨h1, h2, h3⟩ | ⟨h1, h3⟩ | ⟨h1, h2, h3⟩ | ⟨h1, h3⟩ <;> rw [h3] at h <;> subst h
    · exact .inr (.inr (.inl ⟨rfl, h1, h2, rfl⟩))
    · exact .inr (.inr (.inr (.inl ⟨rfl, h1, rfl⟩)))
    · exact .inr (.inr (.inr (.inr (.inl ⟨rfl, h1, h2, rfl⟩))))
    · simp
  | eng =>
    rw [ha] at h
    simp only [agentStep, Host.Outcome.next.injEq] at h
    rcases engStep_cases s.takeTurn with ⟨h1, h3⟩ | ⟨h1, h2, h4, h3⟩ | ⟨h1, h3⟩ <;> rw [h3] at h <;> subst h
    · exact .inr (.inr (.inr (.inr (.inr (.inl ⟨rfl, h1, rfl⟩)))))
    · exact .inr (.inr (.inr (.inr (.inr (.inr (.inl ⟨rfl, h1, h2, h4, rfl⟩))))))
    · simp
  | rst =>
    rw [ha] at h
    simp only [agentStep, Host.Outcome.next.injEq] at h
    exact .inr (.inr (.inr (.inr (.inr (.inr (.inr (.inl ⟨rfl, h.symm⟩)))))))

@[simp] theorem runFor_zero (s : State) : runFor 0 s = .next s := rfl

/-- One step first, then the rest. -/
theorem runFor_step {s t : State} (h : step s = .next t) (n : Nat) : runFor (n + 1) s = runFor n t := by
  have h' : Sys2Proof.core.step s = .next t := h
  unfold runFor
  simp only [Host.Core.run, h']
  rfl

/-- A refused step ends the run. -/
theorem runFor_refused {s : State} {r : Refusal} (h : step s = .refused r) (n : Nat) : runFor (n + 1) s = .refused r := by
  have h' : Sys2Proof.core.step s = .refused r := h
  unfold runFor
  simp only [Host.Core.run, h']
  rfl

/-- Some steps first, then the rest. -/
theorem runFor_add {m : Nat} {s t : State} (h : runFor m s = .next t) (n : Nat) : runFor (m + n) s = runFor n t := by
  induction m generalizing s with
  | zero => cases h; rw [Nat.zero_add]
  | succ m ih =>
    cases hs : step s with
    | next u =>
      rw [runFor_step hs] at h
      rw [Nat.add_right_comm, runFor_step hs, ih h]
    | fault r => cases r
    | refused r =>
      rw [runFor_refused hs] at h
      cases h

@[simp] theorem someOnRun_zero (p : State → Bool) (s : State) : someOnRun p 0 s = p s := rfl

/-- The first state first, then the rest of the run. -/
theorem someOnRun_step (p : State → Bool) {s t : State} (h : step s = .next t) (n : Nat) :
    someOnRun p (n + 1) s = (p s || someOnRun p n t) := by
  simp only [someOnRun, h]

/-- What holds somewhere on a run holds in one of the states it passes. -/
theorem someOnRun_iff (p : State → Bool) (n : Nat) (s : State) :
    someOnRun p n s = true ↔ ∃ m u, m ≤ n ∧ runFor m s = .next u ∧ p u = true := by
  induction n generalizing s with
  | zero =>
    constructor
    · exact fun h => ⟨0, s, Nat.le_refl 0, rfl, h⟩
    · rintro ⟨m, u, hm, hr, hu⟩
      obtain rfl := Nat.le_zero.mp hm
      cases hr
      exact hu
  | succ n ih =>
    cases ht : step s with
    | next t =>
      rw [someOnRun_step p ht, Bool.or_eq_true, ih]
      constructor
      · rintro (h | ⟨m, u, hm, hr, hu⟩)
        · exact ⟨0, s, Nat.zero_le _, rfl, h⟩
        · exact ⟨m + 1, u, Nat.succ_le_succ hm, (runFor_step ht m).trans hr, hu⟩
      · rintro ⟨m | m, u, hm, hr, hu⟩
        · cases hr
          exact .inl hu
        · exact .inr ⟨m, u, Nat.le_of_succ_le_succ hm, (runFor_step ht m).symm.trans hr, hu⟩
    | fault r => cases r
    | refused r =>
      simp only [someOnRun, ht, Bool.or_false]
      constructor
      · exact fun h => ⟨0, s, Nat.zero_le _, rfl, h⟩
      · rintro ⟨m | m, u, -, hr, hu⟩
        · cases hr
          exact hu
        · rw [runFor_refused ht] at hr
          cases hr

/-- A run is faulted exactly when one of its states has ERR = 1 (R111). -/
theorem runFaulted_iff (n : Nat) (s : State) :
    runFaulted n s = true ↔ ∃ m u, m ≤ n ∧ runFor m s = .next u ∧ u.faulted :=
  someOnRun_iff _ n s

/-- A run ends after its last command's DONE exactly when the trace gains a DONE after every state that awaits one (R136). -/
theorem runPastLastDone_iff (n : Nat) (s t : State) :
    runPastLastDone n s t = true ↔
      ∀ m u, m ≤ n → runFor m s = .next u → u.awaitsDone → completions u.trace < completions t.trace := by
  rw [runPastLastDone, Bool.not_eq_true', ← Bool.not_eq_true, someOnRun_iff]
  constructor
  · intro h m u hm hr ha
    by_contra hlt
    exact h ⟨m, u, hm, hr, decide_eq_true ⟨ha, Nat.le_of_not_lt hlt⟩⟩
  · rintro h ⟨m, u, hm, hr, hu⟩
    obtain ⟨ha, hle⟩ := of_decide_eq_true hu
    exact absurd (h m u hm hr ha) (Nat.not_lt.mpr hle)

end Sys2Proof.Machine
end

