-- ==== Sys2Proof/Tests/Slice0.lean ====
section
/-! SUPPORT. Tests. Expected values are the spec's: the vectors of 95_test_vectors.md (W<n>, V<n>) and the encodings of R56, R58
and R65. Then a witness for the hypotheses of every statement that has some: a concrete state that meets them together. -/
namespace Sys2Proof.Tests
open Sys2Proof Sys2Proof.Machine

/-- The state of an outcome that is a next state; no step of this machine is anything else. -/
def after (o : Host.Outcome State Fault Refusal) : State :=
  match o with
  | .next t => t
  | .fault _ | .refused _ => State.reset

/-! ## The format's checks refuse what is ill formed (R58 to R60) -/

theorem test_wellFormed_accepts_xfer : (Cmd32.mk 0x02 0x00 0xFFFF).wellFormed = true := by decide
theorem test_wellFormed_refuses_illegal_op : (Cmd32.mk 0x06 0x00 0x0000).wellFormed = false := by decide
theorem test_wellFormed_refuses_op_zero : (Cmd32.mk 0x00 0x00 0x0000).wellFormed = false := by decide
theorem test_wellFormed_refuses_rsv : (Cmd32.mk 0x04 0x80 0x0000).wellFormed = false := by decide
theorem test_wellFormed_refuses_data : (Cmd32.mk 0x03 0x00 0xFFFF).wellFormed = false := by decide

/-! ## Decoding words written out bit by bit from the table's encodings -/

theorem test_decode_cfg : decode 0b00000001000000000000000000000000 = .ok .cfg := by decide
theorem test_decode_xfer : decode 0b00000010000000001000000000000001 = .ok (.xfer 0x8001) := by decide
theorem test_decode_csl : decode 0b00000011000000000000000000000000 = .ok .csl := by decide
theorem test_decode_csh : decode 0b00000100000000000000000000000000 = .ok .csh := by decide
theorem test_decode_rdsr : decode 0b00000101000000000000000000000000 = .ok .rdsr := by decide
theorem test_decode_opcode_check_first : decode 0x00FF1234 = .error .illegalOpcode := by decide
theorem test_decode_rsv_before_data : decode 0x02FF1234 = .error .reservedNonzero := by decide
theorem test_table_word_xfer : decodeTableWord 32 0x02003FFF = some (.xfer 0x3FFF) := by decide
theorem test_table_word_too_long : decodeTableWord 40 0x01000000 = none := by decide

/-! ## One step on a small state -/

/-- The block after reset and CFG (V1). -/
def configured : State := after (exec .cfg State.reset)

/-- The configured block with chip-select asserted. -/
def selected : State := { configured with csN := false, trace := [.reset, .done none, .csFall] }

theorem test_reset_status : State.reset.status = 0x0009 := by decide
/-- V1. -/
theorem test_cfg_status : configured.status = 0x0F1D ∧ configured.trace = [.reset, .done none] := by decide
/-- V3. -/
theorem test_cfg_keeps_chip_select :
    (after (exec .cfg (after (exec .csl State.reset)))).status = 0x0F15 := by decide
/-- V14. -/
theorem test_xfer_before_cfg :
    (after (exec (.xfer 0x1234) State.reset)).status = 0xE009 ∧
    (after (exec (.xfer 0x1234) State.reset)).trace = [.reset, .done none] := by decide
/-- The accept row of section 2.3. -/
theorem test_xfer_accepted :
    (after (exec (.xfer 0x8001) selected)).phase = .xwt ∧ (after (exec (.xfer 0x8001) selected)).xdata = 0x8001 ∧
    (after (exec (.xfer 0x8001) selected)).trace = selected.trace := by decide
/-- V18. -/
theorem test_csl_from_reset :
    (after (exec .csl State.reset)).trace = [.reset, .csFall, .done none] ∧
    (after (exec .csl State.reset)).status = 0x0001 := by decide
/-- V21. -/
theorem test_csh_from_reset : (after (exec .csh State.reset)).trace = [.reset, .done none] := by decide
/-- V22. -/
theorem test_csh_after_csl :
    (after (exec .csh (after (exec .csl State.reset)))).trace = [.reset, .csFall, .done none, .csRise, .done none] := by decide
/-- V25. -/
theorem test_rdsr_from_reset : (after (exec .rdsr State.reset)).trace = [.reset, .done (some 0x0009)] := by decide
/-- V28. -/
theorem test_rdsr_selected : (after (exec .rdsr selected)).trace = selected.trace ++ [.done (some 0x0F15)] := by decide

/-- The engine's row "BIT 16" of section 2.3: SHIFT 0x8000 with fifteen bits sent. -/
def lastBit : State :=
  { configured with
    phase := .xwb, xdata := 0x8001, txbuf := 0x8001, shift := 0x8000, shact := true, bitcnt := 15
    trace := (bitEvents 0x8001).take 15 }

theorem test_last_bit :
    (engStep lastBit).shift = 0 ∧ (engStep lastBit).shact = false ∧ (engStep lastBit).bitcnt = 16 ∧
    (engStep lastBit).trace = bitEvents 0x8001 := by decide
/-- The row "BIT 1" of section 2.3. -/
theorem test_first_bit :
    (engStep { lastBit with shift := 0x8001, bitcnt := 0, trace := [] }).shift = 0x0002 ∧
    (engStep { lastBit with shift := 0x8001, bitcnt := 0, trace := [] }).trace = [.bit true] := by decide
/-- The row "XWR" of section 2.3. -/
theorem test_xwr :
    (seqStep { configured with phase := .xwr, xdata := 0x8001 }).txbuf = 0x8001 ∧
    (seqStep { configured with phase := .xwr, xdata := 0x8001 }).txfull = true := by decide
/-- XWB holds before LOAD, since BSY counts the stage (section 2.3). -/
theorem test_xwb_holds_before_load :
    seqStep { configured with phase := .xwb, txfull := true } = { configured with phase := .xwb, txfull := true } := by decide

/-- V41: a reset after five bits of 0xA5A5. -/
def fiveBits : State :=
  { selected with
    phase := .xwb, xdata := 0xA5A5, txbuf := 0xA5A5, shift := 0xA5A5#16 <<< 5, shact := true, bitcnt := 5
    trace := selected.trace ++ (bitEvents 0xA5A5).take 5 }

theorem test_reset_in_transfer :
    (resetStep fiveBits).trace = selected.trace ++
      [.bit true, .bit false, .bit true, .bit false, .bit false, .csRise, .reset] ∧
    (resetStep fiveBits).status = 0x0009 := by decide
/-- V34, its second word: the first error is kept. -/
theorem test_first_error_kept :
    (after (acceptWord 0x06000000 (after (exec (.xfer 0x0000) State.reset)))).status = 0xE009 := by decide
/-- V5. -/
theorem test_reserved_word : (after (acceptWord 0x01000001 State.reset)).status = 0xA009 := by decide

/-- V20 as wire events: one frame of 0x3000. -/
theorem test_frame_of_3000 : frames (frameEvents 0x3000) = [0x3000] := by decide
/-- V12: two words in one window are no frame. -/
theorem test_two_words_no_frame : frames ([.csFall] ++ bitEvents 0x3FFF ++ bitEvents 0x3FFF ++ [.csRise]) = [] := by decide

/-- The first word after reset is the one at the port. -/
theorem test_first_word_runs : (after (step (State.reset.withFetchWord 32 0x01000000))).status = 0x0F1D := by decide

/-- P1's source line, in small letters and with its comment. -/
theorem test_assemble_frame :
    assembleLine ['f', 'r', 'a', 'm', 'e', ' ', '0', 'x', '3', 'F', 'F', 'F', ' ', ';', 'x'] =
      .ok [0x03000000, 0x02003FFF, 0x04000000] := by decide
theorem test_assemble_out_of_range : assembleLine ['X', 'F', 'E', 'R', ' ', '6', '5', '5', '3', '6'] = .error .badLiteral := by
  decide

/-! ## Witnesses: each statement's hypotheses can be met together -/

theorem witness_decodedWord : decode 0x0200FFFF = .ok (.xfer 0xFFFF) := by decide

theorem witness_decodeFollowsItsChecks : State.reset.phase = .idle ∧ State.reset.spe = false := by decide

theorem witness_stepRunsTheDecodedCommand :
    nextTurn (State.reset.withOffer 0x01000000) = .host ∧ (State.reset.withOffer 0x01000000).offer = some 0x01000000 ∧
    decode 0x01000000 = .ok .cfg ∧ nextTurn (State.reset.withOffer 0x00000000) = .host ∧
    decode 0x00000000 = .error .illegalOpcode := by decide

theorem witness_wordAtThePort : State.reset.phase = .idle ∧ decodeTableWord 32 0x05000000 = some .rdsr := by decide

/-- A word offered while a transfer is in progress, at HOST's turn. -/
def offered : State := { fiveBits with offer := some 0x04000000, hostWords := [0x05000000], turns := [.host, .eng] }

theorem witness_offerIsHeld :
    (nextTurn offered = .host ∧ offered.offer = some 0x04000000 ∧ offered.phase ≠ .idle) ∧
    (nextTurn (State.reset.withOffer 0x03000000) = .host ∧ (State.reset.withOffer 0x03000000).phase = .idle) ∧
    ¬offered.accepts ∧
    (nextTurn { State.reset with hostWords := [0x03000000] } = .host ∧ State.reset.offer = none) ∧
    (nextTurn State.reset = .host ∧ State.reset.hostWords = []) := by decide

/-- The offer's clauses outside IDLE: the next word offered before the DONE of the transfer (log 17), no word to offer, and a reset
that keeps the offer. -/
theorem witness_offerOutsideIdle :
    (nextTurn { offered with offer := none } = .host ∧ offered.phase ≠ .idle ∧ offered.hostWords = [0x05000000]) ∧
    (nextTurn { offered with offer := none, hostWords := [] } = .host) ∧
    (nextTurn { offered with turns := [.rst] } = .rst ∧ offered.offer = some 0x04000000 ∧
      ¬({ offered with turns := [.rst] } : State).accepts) := by decide

theorem witness_offerIsHeld_step : step offered = .next (after (step offered)) := rfl

theorem witness_eachAcceptedWordCompletes :
    step (State.reset.withOffer 0x03000000) = .next (after (step (State.reset.withOffer 0x03000000))) ∧
    nextTurn (State.reset.withOffer 0x03000000) ≠ .rst ∧ (State.reset.withOffer 0x03000000).accepts := ⟨rfl, by decide, by decide⟩

/-- A state in which reset has its turn. -/
def resetting : State := { fiveBits with turns := [.rst] }

theorem witness_resetTurn : step resetting = .next (after (step resetting)) ∧ nextTurn resetting = .rst := ⟨rfl, by decide⟩

theorem witness_quiescent :
    State.reset.quiescent ∧ State.reset.hostWords = [] ∧ nextTurn State.reset ≠ .rst := by decide

theorem witness_cfg : State.reset.phase = .idle ∧ fiveBits.phase ≠ .idle ∧
    ((Cmd32.ofWord 0x01000001).op = 0x01 ∧ (0x01000001 : CmdWord) ≠ 0x01000000) := by decide

theorem witness_cfgTwice : configured.phase = .idle ∧ configured.spe = true ∧ configured.configInv := by decide

theorem witness_xfer :
    (configured.phase = .idle ∧ configured.spe = true) ∧ (State.reset.phase = .idle ∧ State.reset.spe = false) ∧
    fiveBits.phase ≠ .idle := by decide

theorem witness_csl : (configured.phase = .idle ∧ configured.csN = true) ∧ (selected.phase = .idle ∧ selected.csN = false) ∧
    fiveBits.phase ≠ .idle ∧ ((Cmd32.ofWord 0x03000001).op = 0x03 ∧ (0x03000001 : CmdWord) ≠ 0x03000000) := by decide

theorem witness_csh : selected.inv ∧ selected.phase = .idle ∧ selected.csN = false ∧ configured.csN = true ∧
    selected.status = 0x0F15 ∧
    ((Cmd32.ofWord 0x04800000).op = 0x04 ∧ (0x04800000 : CmdWord) ≠ 0x04000000) := by decide

theorem witness_chipSelectIdempotent :
    configured.phase = .idle ∧ exec .csl configured = .next (after (exec .csl configured)) ∧
    exec .csh configured = .next (after (exec .csh configured)) := ⟨by decide, rfl, rfl⟩

theorem witness_rdsr_enabled : selected.inv ∧ selected.phase = .idle ∧ selected.spe = true := by decide

theorem witness_rdsr : State.reset.inv ∧ State.reset.phase = .idle ∧ State.reset.spe = false ∧
    ((Cmd32.ofWord 0x05008000).op = 0x05 ∧ (0x05008000 : CmdWord) ≠ 0x05000000) := by decide

theorem witness_erroneousWord : decode 0x06000000 = .error .illegalOpcode ∧ State.reset.phase = .idle ∧ fiveBits.phase ≠ .idle := by
  decide

theorem witness_firstApplicableError :
    State.reset.phase = .idle ∧ State.reset.err = false ∧ State.reset.errcode = 0 := by decide

/-- A state with an error recorded. -/
def failed : State := after (acceptWord 0x06000000 State.reset)

theorem witness_onlyResetClears :
    step failed = .next (after (step failed)) ∧ nextTurn failed ≠ .rst ∧ failed.err = true := ⟨rfl, by decide, by decide⟩

theorem witness_commandsAfterError : Instr.cfg ≠ .rdsr ∧ exec .cfg State.reset = .next configured := ⟨by decide, rfl⟩

/-- An illegal word and then a reset: ERR = 0 at the end of the run, and the run is faulted (R111). -/
def failedThenReset : State := { State.reset with offer := some 0x06000000, turns := [.host, .rst] }

theorem test_faulted_run_is_not_final :
    runFinished 2 failedThenReset (after (runFor 2 failedThenReset)) ∧ (after (runFor 2 failedThenReset)).err = false ∧
    runFaulted 2 failedThenReset = true := ⟨⟨rfl, by decide, by decide, by decide⟩, by decide⟩

theorem witness_faultedRun :
    runFor 1 failedThenReset = .next (after (runFor 1 failedThenReset)) ∧ (after (runFor 1 failedThenReset)).faulted :=
  ⟨rfl, by decide⟩

/-- A reset that cuts off the last command ends in a quiescent state, and the run is not finished (R126, R136). -/
theorem test_cut_off_run_is_not_finished :
    (after (runFor 1 resetting)).quiescent ∧ runPastLastDone 1 resetting (after (runFor 1 resetting)) = false := by decide

/-- P5: the XFER that a reset cuts off is not the last command, and the run with the command after it is finished. -/
theorem test_run_past_a_cut_off_command :
    runPastLastDone 2 { resetting with offer := some 0x05000000 }
      (after (runFor 2 { resetting with offer := some 0x05000000 })) = true := by decide

theorem witness_runsFinish :
    resetting.phase ≠ .idle ∧ nextTurn resetting = .rst ∧ ¬(after (runFor 1 resetting)).accepts := by decide

/-- One CFG, offered and accepted: a final run; the same with an illegal word: a finished one that is not. -/
theorem witness_finalRun :
    runFinal 1 (State.reset.withOffer 0x01000000) (after (runFor 1 (State.reset.withOffer 0x01000000))) ∧
    .rst ∉ (State.reset.withOffer 0x01000000).turns ∧
    runFinished 1 (State.reset.withOffer 0x06000000) (after (runFor 1 (State.reset.withOffer 0x06000000))) ∧
    (after (runFor 1 (State.reset.withOffer 0x06000000))).faulted :=
  ⟨⟨⟨rfl, by decide, by decide, by decide⟩, by decide⟩, by decide, ⟨rfl, by decide, by decide, by decide⟩, by decide⟩

/-- The steps of CSL, of CSH and of reset that move the line. -/
theorem witness_chipSelectMoves :
    (after (step (configured.withOffer 0x03000000))).csN ≠ configured.csN ∧
    (after (step (selected.withOffer 0x04000000))).csN ≠ selected.csN ∧
    (after (step resetting)).csN ≠ resetting.csN := by decide

/-- The accepted words of the clauses on the level left. -/
theorem witness_chipSelectAccepted :
    (configured.withOffer 0x03000000).accepts ∧ (selected.withOffer 0x04000000).accepts ∧ nextTurn resetting = .rst := by decide

theorem witness_configurationUnchanged :
    step offered = .next (after (step offered)) ∧ nextTurn offered ≠ .rst ∧
    ¬(offered.accepts ∧ offered.offer = some 0x01000000) := ⟨rfl, by decide, by decide⟩

/-- It is SEQ's turn in any phase, with the stage empty or full, whether the engine shifts or rests: every clause of the
sequencer's rules has its states. -/
theorem witness_sequencer (p : Phase) (full shifting : Bool) :
    nextTurn { configured with phase := p, txfull := full, shact := shifting, turns := [.seq] } = .seq := rfl

theorem witness_sequencer_waits :
    ({ configured with phase := .xwt } : State).inv ∧ (engStep lastBit).phase = .xwb ∧ (engStep lastBit).txfull = false ∧
    (engStep lastBit).shact = false := by decide

theorem witness_sequencer_sent : (engStep lastBit).inv := by decide

/-- The engine's clauses, at their boundaries: a full stage, the fifteenth and the sixteenth bit, and nothing to do. -/
theorem witness_engine :
    (nextTurn { configured with txfull := true, turns := [.eng] } = .eng ∧ configured.spe = true ∧ configured.shact = false) ∧
    (nextTurn { lastBit with bitcnt := 14, turns := [.eng] } = .eng ∧ (14 : BitVec 5) + 1 ≠ 16) ∧
    (nextTurn { lastBit with turns := [.eng] } = .eng ∧ lastBit.shact = true ∧ lastBit.bitcnt + 1 = 16) ∧
    (nextTurn { State.reset with turns := [.eng] } = .eng ∧ State.reset.shact = false ∧ State.reset.spe = false) := by decide

theorem witness_bitCounter : lastBit.inv ∧ lastBit.shact = true := by decide

theorem witness_seventeenSteps :
    configured.spe = true ∧ ({ configured with txfull := true } : State).txfull = true ∧ configured.shact = false := by decide

/-- SEQ about to write the stage. -/
def writing : State := { configured with phase := .xwr, xdata := 0x8001 }

theorem witness_stage :
    writing.inv ∧ (after (step writing)).txbuf ≠ writing.txbuf ∧ nextTurn writing ≠ .rst := by decide

theorem witness_chipSelectRises :
    (selected.withOffer 0x04000000).inv ∧ nextTurn (selected.withOffer 0x04000000) ≠ .rst ∧
    (selected.withOffer 0x04000000).csN = false ∧ (after (step (selected.withOffer 0x04000000))).csN = true := by decide

theorem witness_resetCuts :
    resetting.inv ∧ resetting.phase = .xwb ∧ resetting.txfull = false ∧ nextTurn resetting = .rst := by decide

theorem witness_stepKeepsInvariant : fiveBits.inv ∧ step fiveBits = .next (after (step fiveBits)) := ⟨by decide, rfl⟩

/-- Two steps from power-on: the host offers CFG, and the block accepts it. -/
theorem witness_everyRun :
    (after (runFor 2 { State.reset with hostWords := [0x01000000], turns := [] })).spe = true ∧
    (after (runFor 2 { State.reset with hostWords := [0x01000000], turns := [] })).phase = .idle := by decide

/-- The state right after the acceptance of XFER 0x8001, some turns fixed. -/
def accepted : State := after (exec (.xfer 0x8001) { configured with turns := [.host, .eng, .seq] })

theorem witness_transfer :
    ({ configured with turns := [.host, .eng, .seq] } : State).inv ∧ configured.phase = .idle ∧ configured.spe = true ∧
    .rst ∉ ({ configured with turns := [.host, .eng, .seq] } : State).turns := by decide

theorem witness_transfer_open : runFor 1 accepted = .next (after (runFor 1 accepted)) ∧
    (after (runFor 1 accepted)).phase ≠ .idle := ⟨rfl, by decide⟩

/-- The clause of the finished transfer: PHASE is IDLE again after 22 steps, two of the fixed turns having done nothing, and not
before. -/
theorem witness_transfer_finished :
    (after (runFor 22 accepted)).phase = .idle ∧ ∀ m, m < 22 → (after (runFor m accepted)).phase ≠ .idle := by decide

theorem witness_completes :
    ({ configured with offer := some (encode (.xfer 0x8001)), turns := [.eng, .host] } : State).inv ∧
    configured.phase = .idle ∧ configured.spe = true ∧
    .rst ∉ ({ configured with offer := some (encode (.xfer 0x8001)), turns := [.eng, .host] } : State).turns := by decide

theorem witness_frame :
    ({ configured with hostWords := (expandFrame 0x3FFF).map encode, turns := [.seq] } : State).inv ∧ configured.csN = true ∧
    configured.offer = none ∧ configured.phase = .idle ∧ configured.spe = true ∧ configured.err = false ∧
    .rst ∉ [Agent.seq] := by decide

theorem witness_frame_open_window :
    ({ selected with hostWords := (expandFrame 0x3FFF).map encode, turns := [.seq] } : State).inv ∧ selected.csN = false ∧
    selected.offer = none ∧ selected.phase = .idle ∧ selected.spe = true ∧ selected.err = false ∧ .rst ∉ [Agent.seq] := by decide

/-- Two states that differ in their payload alone. -/
theorem witness_payload :
    (configured.withOffer 0x02000000).blind = (configured.withOffer 0x0200FFFF).blind ∧
    configured.withOffer 0x02000000 ≠ configured.withOffer 0x0200FFFF := by decide

theorem witness_stoppedEngine :
    ({ fiveBits with turns := [.host, .seq, .eng] } : State).phase = .xwb ∧
    ({ fiveBits with turns := [.host, .seq, .eng] } : State).bsy = true ∧
    ∀ a ∈ [Agent.host, .seq], a = .host ∨ a = .seq := by decide

end Sys2Proof.Tests
end

/-! ## The words of commands (R58, R62) -/
namespace Sys2Proof

/-- A command word is put together from its three fields again (R56). -/
theorem Cmd32.toWord_ofWord (c : CmdWord) : (Cmd32.ofWord c).toWord = c := by
  apply BitVec.eq_of_getLsbD_eq
  intro k hk
  simp only [Cmd32.toWord, Cmd32.ofWord, BitVec.getLsbD_setWidth, BitVec.getLsbD_append, BitVec.getLsbD_extractLsb']
  rcases Nat.lt_or_ge k 16 with h | h
  · simp [h, hk]
  rcases Nat.lt_or_ge k 24 with h' | h'
  · simp [hk, Nat.not_lt.mpr h, show k - 16 < 8 by omega, show 16 + (k - 16) = k by omega]
  · simp [hk, Nat.not_lt.mpr h, show ¬ k - 16 < 8 by omega, show k - 16 - 8 < 8 by omega,
      show 24 + (k - 16 - 8) = k by omega]

/-- Well-formed fields whose OP names a command are that command's fields (R58 to R60). -/
theorem fields_of_selectCommand {f : Cmd32} {i : Instr} (hwf : f.wellFormed = true)
    (h : selectCommand f.op f.data = .ok i) : f = i.fields := by
  simp only [Cmd32.wellFormed, Bool.and_eq_true] at hwf
  obtain ⟨⟨-, hrsv⟩, hallowed⟩ := hwf
  obtain ⟨hop, hi⟩ := selectCommand_cases h
  have hdata : f.data = i.data := by
    rcases hi with hi | hne
    · rw [hi]; rfl
    · rw [((Cmd32.dataAllowed_iff f).mp hallowed).resolve_left hne]
      cases i with
      | xfer w => exact absurd hop hne
      | cfg | csl | csh | rdsr => rfl
  rw [Instr.fields, ← hop, ← hdata, ← (Cmd32.rsvZero_iff f).mp hrsv]

/-- A word that decodes to a command is that command's one word (R58, R63). -/
theorem eq_encode_of_decode {c : CmdWord} {i : Instr} (h : decode c = .ok i) : c = encode i := by
  rcases decode_cases c with ⟨hwf, j, hj, hsel⟩ | ⟨-, he⟩ | ⟨-, -, he⟩
  · obtain rfl : j = i := Except.ok.inj (hj.symm.trans h)
    rw [encode, ← fields_of_selectCommand hwf hsel, Cmd32.toWord_ofWord]
  · cases he.symm.trans h
  · cases he.symm.trans h

/-- A recorded code is never the code of "no error" (R37, R106). -/
theorem CmdError.code_ne_zero (e : CmdError) : e.code ≠ 0 := by
  cases e <;> decide

end Sys2Proof

/-! ## What the effect of an accepted word can be (R57, R63) -/
namespace Sys2Proof.Machine

/-- The effect of a word is that of the command it is the word of, or the record of its error. -/
theorem effectOfWord_cases (c : CmdWord) :
    (∃ i, c = encode i ∧ effectOfWord c = effectOf i) ∨ (∃ e, effectOfWord c = raiseCmdError e) := by
  unfold effectOfWord
  cases h : decode c with
  | ok i => exact .inl ⟨i, eq_encode_of_decode h, rfl⟩
  | error e => exact .inr ⟨e, rfl⟩

/-- A word that decodes to a command has that command's effect (R57). -/
theorem effectOfWord_of_decode {c : CmdWord} {i : Instr} (h : decode c = .ok i) : effectOfWord c = effectOf i := by
  simp [effectOfWord, h]

/-- With SPE = 1 XFER's word is latched (R76). -/
theorem effectOf_xfer_enabled {w : Word} {s : State} (h : s.spe = true) : effectOf (.xfer w) s = s.latchWord w := by
  simp [effectOf, h]

/-- With SPE = 0 XFER raises NOT_CONFIGURED (R76). -/
theorem effectOf_xfer_disabled {w : Word} {s : State} (h : s.spe = false) :
    effectOf (.xfer w) s = raiseCmdError .notConfigured s := by
  simp [effectOf, h]

/-- XFER's effect is one of the two (R76). -/
theorem effectOf_xfer_cases (w : Word) (s : State) :
    (s.spe = true ∧ effectOf (.xfer w) s = s.latchWord w) ∨
    (s.spe = false ∧ effectOf (.xfer w) s = raiseCmdError .notConfigured s) := by
  cases h : s.spe
  · exact .inr ⟨rfl, effectOf_xfer_disabled h⟩
  · exact .inl ⟨rfl, effectOf_xfer_enabled h⟩

/-! ## One equation per rule of the sequencer and of the engine (R77 to R84) -/

theorem seqStep_xwt_empty {s : State} (hp : s.phase = .xwt) (hf : s.txfull = false) :
    seqStep s = { s with phase := .xwr } := by
  simp [seqStep, hp, hf]

theorem seqStep_xwr {s : State} (hp : s.phase = .xwr) : seqStep s = s.fillStage := by
  simp [seqStep, hp]

theorem seqStep_xwb_rest {s : State} (hp : s.phase = .xwb) (hb : s.bsy = false) :
    seqStep s = { s with phase := .idle }.complete none := by
  simp [seqStep, hp, hb]

theorem seqStep_of_not_ready {s : State} (h : seqReady s = false) : seqStep s = s := by
  rcases seqStep_cases s with ⟨hp, hf, -⟩ | ⟨hp, -⟩ | ⟨hp, hb, -⟩ | ⟨-, he⟩
  · simp [seqReady, hp, hf] at h
  · simp [seqReady, hp] at h
  · simp [seqReady, hp, hb] at h
  · exact he

theorem engStep_shifting {s : State} (ha : s.shact = true) : engStep s = s.shiftOut := by
  simp [engStep, ha]

theorem engStep_loading {s : State} (ha : s.shact = false) (hs : s.spe = true) (hf : s.txfull = true) :
    engStep s = s.loadShift := by
  simp [engStep, ha, hs, hf]

theorem engStep_of_not_ready {s : State} (h : engReady s = false) : engStep s = s := by
  rcases engStep_cases s with ⟨ha, -⟩ | ⟨-, hs, hf, -⟩ | ⟨-, he⟩
  · simp [engReady, ha] at h
  · simp [engReady, hs, hf] at h
  · exact he

/-! ## TRACE (R39, R48) -/

/-- What an accepted word may emit in its HOST step: a completion, after a chip-select event or not, or nothing (R48). -/
def CommandEvents (es : List Event) : Prop :=
  es = [] ∨ (∃ r, es = [.done r]) ∨ es = [.csFall, .done none] ∨ es = [.csRise, .done none]

/-- What one step may emit (R39, R48, R84, R124). -/
def StepEvents (es : List Event) : Prop :=
  es = [] ∨ (∃ b, es = [.bit b]) ∨ (∃ r, es = [.done r]) ∨ es = [.csFall, .done none] ∨ es = [.csRise, .done none] ∨
    es = [.reset] ∨ es = [.csRise, .reset]

theorem StepEvents.of_command {es : List Event} (h : CommandEvents es) : StepEvents es := by
  rcases h with h | h | h | h <;> simp [StepEvents, h]

/-- CSL and CSH complete, and show a change of level before (R94, R95). -/
theorem driveCs_complete_trace (level : Bool) (s : State) :
    ∃ es, ((s.driveCs level).complete none).trace = s.trace ++ es ∧ CommandEvents es := by
  rcases driveCs_cases level s with ⟨-, h⟩ | ⟨-, h⟩
  · exact ⟨[.done none], by simp [h], .inr (.inl ⟨none, rfl⟩)⟩
  · refine ⟨[if level then .csRise else .csFall, .done none], by simp [h], ?_⟩
    cases level <;> simp [CommandEvents]

/-- Every command's effect only adds to TRACE (R48). -/
theorem effectOf_trace (i : Instr) (s : State) :
    ∃ es, (effectOf i s).trace = s.trace ++ es ∧ CommandEvents es := by
  cases i with
  | cfg => exact ⟨[.done none], rfl, .inr (.inl ⟨none, rfl⟩)⟩
  | xfer w =>
    rcases effectOf_xfer_cases w s with ⟨-, h⟩ | ⟨-, h⟩ <;> rw [h]
    · exact ⟨[], by simp, .inl rfl⟩
    · exact ⟨[.done none], rfl, .inr (.inl ⟨none, rfl⟩)⟩
  | csl => exact driveCs_complete_trace false s
  | csh => exact driveCs_complete_trace true s
  | rdsr => exact ⟨[.done (some s.status)], rfl, .inr (.inl ⟨_, rfl⟩)⟩

/-- So does every accepted word, in error or not (R48, R105). -/
theorem effectOfWord_trace (c : CmdWord) (s : State) :
    ∃ es, (effectOfWord c s).trace = s.trace ++ es ∧ CommandEvents es := by
  rcases effectOfWord_cases c with ⟨i, -, h⟩ | ⟨e, h⟩ <;> rw [h]
  · exact effectOf_trace i s
  · exact ⟨[.done none], rfl, .inr (.inl ⟨none, rfl⟩)⟩

theorem stepEvents_resetEvents (s : State) : StepEvents (resetEvents s) := by
  cases h : s.csN <;> simp [StepEvents, resetEvents, h]

/-- Settles O13, by the cases of a step. -/
theorem traceOnlyGrows : Obligations.TraceOnlyGrows := by
  intro s t h
  have nothing : ∃ es, s.trace = s.trace ++ es ∧ StepEvents es := ⟨[], (List.append_nil _).symm, .inl rfl⟩
  rcases step_cases h with ⟨-, c, -, -, rfl⟩ | ⟨-, c, cs, -, -, rfl⟩ | ⟨-, -, -, rfl⟩ | ⟨-, -, rfl⟩ | ⟨-, -, -, rfl⟩ |
    ⟨-, -, rfl⟩ | ⟨-, -, -, -, rfl⟩ | ⟨-, rfl⟩ | ⟨-, -, rfl⟩
  · obtain ⟨es, htr, hes⟩ := effectOfWord_trace c s.takeTurn.takeOffer
    exact ⟨es, htr, StepEvents.of_command hes⟩
  · exact nothing
  · exact nothing
  · exact nothing
  · exact ⟨[.done none], rfl, .inr (.inr (.inl ⟨none, rfl⟩))⟩
  · exact ⟨[.bit (s.shift.getLsbD 15)], rfl, .inr (.inl ⟨_, rfl⟩)⟩
  · exact nothing
  · exact ⟨resetEvents s, rfl, stepEvents_resetEvents s⟩
  · exact nothing

/-! ## The configuration fields (R21 to R27) -/

/-- The seven configuration fields together. -/
def State.config (s : State) : Bool × Bool × Bool × Bool × Bool × BitVec 4 × Bool :=
  (s.spe, s.mstr, s.cpol, s.cpha, s.lsbf, s.ds, s.hwss)

theorem State.config_eq_iff {s t : State} :
    t.config = s.config ↔
      t.spe = s.spe ∧ t.mstr = s.mstr ∧ t.cpol = s.cpol ∧ t.cpha = s.cpha ∧ t.lsbf = s.lsbf ∧ t.ds = s.ds ∧ t.hwss = s.hwss := by
  simp [State.config]

/-- Of the commands, CFG alone writes the configuration (R70). -/
theorem effectOf_config {i : Instr} (hi : i ≠ .cfg) (s : State) : (effectOf i s).config = s.config := by
  cases i with
  | cfg => exact absurd rfl hi
  | xfer w => rcases effectOf_xfer_cases w s with ⟨-, h⟩ | ⟨-, h⟩ <;> rw [h] <;> rfl
  | csl | csh => simp [effectOf, State.config]
  | rdsr => rfl

/-- Every accepted word but CFG's leaves the configuration (R70). -/
theorem effectOfWord_config {c : CmdWord} (hc : c ≠ 0x01000000) (s : State) :
    (effectOfWord c s).config = s.config := by
  rcases effectOfWord_cases c with ⟨i, rfl, h⟩ | ⟨e, h⟩ <;> rw [h]
  · refine effectOf_config ?_ s
    rintro rfl
    exact hc (by decide)
  · rfl

/-- A step accepts a word, resets, or leaves the configuration and the chip-select line as they are (R57, R82, R124). -/
theorem step_accepts_or_rst_or_keeps {s t : State} (h : step s = .next t) :
    (s.accepts ∧ ∃ c, s.offer = some c ∧ t = effectOfWord c s.takeTurn.takeOffer) ∨
    (nextTurn s = .rst ∧ t = resetStep s.takeTurn) ∨
    (t.config = s.config ∧ t.csN = s.csN) := by
  rcases step_cases h with ⟨hn, c, ho, hp, rfl⟩ | ⟨-, c, cs, -, -, rfl⟩ | ⟨-, -, -, rfl⟩ | ⟨-, -, rfl⟩ | ⟨-, -, -, rfl⟩ |
    ⟨-, -, rfl⟩ | ⟨-, -, -, -, rfl⟩ | ⟨hn, rfl⟩ | ⟨-, -, rfl⟩
  · exact .inl ⟨⟨hn, by simp [ho], hp⟩, c, ho, rfl⟩
  · exact .inr (.inr ⟨rfl, rfl⟩)
  · exact .inr (.inr ⟨rfl, rfl⟩)
  · exact .inr (.inr ⟨rfl, rfl⟩)
  · exact .inr (.inr ⟨rfl, rfl⟩)
  · exact .inr (.inr ⟨rfl, rfl⟩)
  · exact .inr (.inr ⟨rfl, rfl⟩)
  · exact .inr (.inl ⟨hn, rfl⟩)
  · exact .inr (.inr ⟨rfl, rfl⟩)

/-- Settles O29: the word that a step accepts is not CFG's, and no other step but reset's writes a configuration field. -/
theorem onlyCfgAndResetWriteTheConfiguration : Obligations.OnlyCfgAndResetWriteTheConfiguration := by
  intro s t h hrst hcfg
  rw [← State.config_eq_iff]
  rcases step_accepts_or_rst_or_keeps h with ⟨hacc, c, ho, rfl⟩ | ⟨hn, -⟩ | ⟨hkeep, -⟩
  · refine effectOfWord_config ?_ s.takeTurn.takeOffer
    rintro rfl
    exact hcfg ⟨hacc, ho⟩
  · exact absurd hn hrst
  · exact hkeep

/-! ## The chip-select line (R34) -/

/-- Of the accepted words, CSL's lowers the line, CSH's raises it, and every other leaves it (R94, R95). -/
theorem effectOfWord_csN_cases (c : CmdWord) (s : State) :
    (c = 0x03000000 ∧ (effectOfWord c s).csN = false) ∨ (c = 0x04000000 ∧ (effectOfWord c s).csN = true) ∨
    (effectOfWord c s).csN = s.csN := by
  rcases effectOfWord_cases c with ⟨i, rfl, h⟩ | ⟨e, h⟩ <;> rw [h]
  · cases i with
    | cfg | rdsr => exact .inr (.inr rfl)
    | xfer w => rcases effectOf_xfer_cases w s with ⟨-, h⟩ | ⟨-, h⟩ <;> rw [h] <;> exact .inr (.inr rfl)
    | csl => exact .inl ⟨by decide, by simp [effectOf]⟩
    | csh => exact .inr (.inl ⟨by decide, by simp [effectOf]⟩)
  · exact .inr (.inr rfl)

/-- CSL's word leaves the line low (R94). -/
theorem effectOfWord_csl_csN (s : State) : (effectOfWord 0x03000000 s).csN = false := by
  rw [effectOfWord_of_decode (i := .csl) (by decide)]
  simp [effectOf]

/-- CSH's word leaves the line high (R95). -/
theorem effectOfWord_csh_csN (s : State) : (effectOfWord 0x04000000 s).csN = true := by
  rw [effectOfWord_of_decode (i := .csh) (by decide)]
  simp [effectOf]

/-- A step that changes the line is reset's, or accepts CSL or CSH (R34). -/
theorem step_csN_changed {s t : State} (h : step s = .next t) (hne : t.csN ≠ s.csN) :
    (nextTurn s = .rst ∧ t.csN = true) ∨
    (s.accepts ∧ s.offer = some 0x03000000 ∧ t.csN = false) ∨
    (s.accepts ∧ s.offer = some 0x04000000 ∧ t.csN = true) := by
  rcases step_accepts_or_rst_or_keeps h with ⟨hacc, c, ho, rfl⟩ | ⟨hn, rfl⟩ | ⟨-, hkeep⟩
  · rcases effectOfWord_csN_cases c s.takeTurn.takeOffer with ⟨rfl, hl⟩ | ⟨rfl, hl⟩ | hl
    · exact .inr (.inl ⟨hacc, ho, hl⟩)
    · exact .inr (.inr ⟨hacc, ho, hl⟩)
    · exact absurd hl hne
  · exact .inl ⟨hn, rfl⟩
  · exact absurd hkeep hne

/-- At HOST's turn an offered word is accepted in IDLE (R57). -/
theorem step_of_accepts {s t : State} {c : CmdWord} (h : step s = .next t) (ha : s.accepts) (hc : s.offer = some c) :
    t = effectOfWord c s.takeTurn.takeOffer := by
  obtain ⟨hn, -, hp⟩ := ha
  rw [step_eq, hn] at h
  have hw : agentStep .host s.takeTurn = acceptWord c s.takeTurn := by simp [agentStep, hostStep, hc]
  rw [hw, acceptWord_eq, accept_idle (by simpa using hp)] at h
  exact (Host.Outcome.next.inj h).symm

/-- At reset's turn the step is the reset step (R124). -/
theorem step_of_rst {s t : State} (h : step s = .next t) (hn : nextTurn s = .rst) : t = resetStep s.takeTurn := by
  rw [step_eq, hn] at h
  exact (Host.Outcome.next.inj h).symm

/-- CFG and XFER do not see the line (R34, R89). -/
theorem effectOf_ignores_csN {i : Instr} (hi : i = .cfg ∨ ∃ w, i = .xfer w) (s : State) (level : Bool) :
    (effectOf i s).csN = s.csN ∧ effectOf i { s with csN := level } = { effectOf i s with csN := level } := by
  rcases hi with rfl | ⟨w, rfl⟩
  · exact ⟨rfl, rfl⟩
  · rcases effectOf_xfer_cases w s with ⟨h, he⟩ | ⟨h, he⟩
    · rw [he, effectOf_xfer_enabled (s := { s with csN := level }) h]
      exact ⟨rfl, rfl⟩
    · rw [he, effectOf_xfer_disabled (s := { s with csN := level }) h]
      exact ⟨rfl, rfl⟩

/-- Nor do they when the command is held (R34, R57). -/
theorem exec_ignores_csN {s t : State} {i : Instr} (hi : i = .cfg ∨ ∃ w, i = .xfer w) (h : exec i s = .next t)
    (level : Bool) : t.csN = s.csN ∧ exec i { s with csN := level } = .next { t with csN := level } := by
  rw [exec_eq] at h
  cases h
  rw [exec_eq]
  by_cases hp : s.phase = .idle
  · obtain ⟨hkeep, hcarry⟩ := effectOf_ignores_csN hi s.takeOffer level
    rw [accept_idle hp, accept_idle (s := { s with csN := level }) hp]
    exact ⟨hkeep, congrArg _ hcarry⟩
  · rw [accept_busy hp, accept_busy (s := { s with csN := level }) hp]
    exact ⟨rfl, rfl⟩

/-- The sequencer does not see the line (R34). -/
theorem seqStep_ignores_csN (s : State) (level : Bool) :
    (seqStep s).csN = s.csN ∧ seqStep { s with csN := level } = { seqStep s with csN := level } := by
  rcases seqStep_cases s with ⟨hp, hf, he⟩ | ⟨hp, he⟩ | ⟨hp, hb, he⟩ | ⟨hr, he⟩
  · rw [he, seqStep_xwt_empty (s := { s with csN := level }) hp hf]
    exact ⟨rfl, rfl⟩
  · rw [he, seqStep_xwr (s := { s with csN := level }) hp]
    exact ⟨rfl, rfl⟩
  · rw [he, seqStep_xwb_rest (s := { s with csN := level }) hp hb]
    exact ⟨rfl, rfl⟩
  · rw [he, seqStep_of_not_ready (s := { s with csN := level }) hr]
    exact ⟨rfl, rfl⟩

/-- The engine does not see the line (R34, R82). -/
theorem engStep_ignores_csN (s : State) (level : Bool) :
    (engStep s).csN = s.csN ∧ engStep { s with csN := level } = { engStep s with csN := level } := by
  rcases engStep_cases s with ⟨ha, he⟩ | ⟨ha, hs, hf, he⟩ | ⟨hr, he⟩
  · rw [he, engStep_shifting (s := { s with csN := level }) ha]
    exact ⟨rfl, rfl⟩
  · rw [he, engStep_loading (s := { s with csN := level }) ha hs hf]
    exact ⟨rfl, rfl⟩
  · rw [he, engStep_of_not_ready (s := { s with csN := level }) hr]
    exact ⟨rfl, rfl⟩

/-- Settles O28: who moves the line, to which level, and who neither reads nor writes it. -/
theorem onlyChipSelectAndResetMoveTheLine : Obligations.OnlyChipSelectAndResetMoveTheLine := by
  refine ⟨fun s t h => step_csN_changed h, fun s t h => ⟨?_, ?_, ?_⟩,
    fun s t i level hi h => exec_ignores_csN hi h level, fun s level => ?_, rfl⟩
  · intro ha hc
    rw [step_of_accepts h ha hc, effectOfWord_csl_csN]
  · intro ha hc
    rw [step_of_accepts h ha hc, effectOfWord_csh_csN]
  · intro hn
    rw [step_of_rst h hn, resetStep_csN]
  · obtain ⟨hs, hs'⟩ := seqStep_ignores_csN s level
    exact ⟨hs, hs', engStep_ignores_csN s level⟩

/-! ## The serial waveform (R35, R88) -/

/-- One event's moments, from SCK low: the slave samples its bit if it is one, and SCK is low after it (R88). -/
theorem sampled_eventPins (n : Nat) (level : Bool) (e : Event) (ps : List Pins) :
    sampled false (eventPins n level e ++ ps) = sentBits level [e] ++ sampled false ps := by
  cases e <;> rfl

theorem sentBits_cons (level : Bool) (e : Event) (es : List Event) :
    sentBits level (e :: es) = sentBits level [e] ++ sentBits (csAfter level e) es := by
  cases e <;> rfl

/-- Settles O48, by induction on the trace. -/
theorem slaveSamplesTheSentBits : Obligations.SlaveSamplesTheSentBits := by
  intro tr
  induction tr with
  | nil => intro n level; rfl
  | cons e es ih =>
    intro n level
    rw [waveform, sampled_eventPins, ih, ← sentBits_cons]

/-! ## The status word (R38) -/

/-- The field DS of the status word (R26, R38). -/
theorem status_ds (s : State) : s.status.extractLsb' 8 4 = s.ds := by
  apply BitVec.eq_of_getLsbD_eq
  intro k hk
  have hlt : 8 + k < 16 := by omega
  simp only [State.status, BitVec.getLsbD_extractLsb', BitVec.getLsbD_setWidth, BitVec.getLsbD_append]
  simp [hk, hlt]

/-- The field ERRCODE of the status word (R37, R38). -/
theorem status_errcode (s : State) : s.status.extractLsb' 14 2 = s.errcode := by
  apply BitVec.eq_of_getLsbD_eq
  intro k hk
  simp only [State.status, BitVec.getLsbD_extractLsb', BitVec.getLsbD_setWidth, BitVec.getLsbD_append]
  simp [hk, show 14 + k < 16 by omega, show ¬ 6 + k < 4 by omega, show 6 + k - 4 ≠ 0 by omega,
    show 6 + k - 4 - 1 ≠ 0 by omega, show 6 + k - 4 - 1 - 1 = k by omega]

/-- The one-bit fields of the status word: each bit is found by the widths of the fields below it (R38). -/
theorem status_bits (s : State) :
    s.status.getLsbD 0 = s.txe ∧ s.status.getLsbD 1 = s.bsy ∧ s.status.getLsbD 2 = s.spe ∧
    s.status.getLsbD 3 = s.csN ∧ s.status.getLsbD 4 = s.mstr ∧ s.status.getLsbD 5 = s.cpol ∧ s.status.getLsbD 6 = s.cpha ∧
    s.status.getLsbD 7 = s.lsbf ∧ s.status.getLsbD 12 = s.hwss ∧ s.status.getLsbD 13 = s.err := by
  simp only [State.status, BitVec.getLsbD_setWidth, BitVec.getLsbD_append, BitVec.getLsbD_ofBool]
  simp

/-- Settles O23: the bits, the two wider fields, and the status words after reset and after CFG. -/
theorem statusBitsFollowTheTable : Obligations.StatusBitsFollowTheTable := by
  refine ⟨fun s => ?_, by decide, by decide⟩
  obtain ⟨htxe, hbsy, hspe, hcsN, hmstr, hcpol, hcpha, hlsbf, hhwss, herr⟩ := status_bits s
  exact ⟨htxe, hbsy, hspe, hcsN, hmstr, hcpol, hcpha, hlsbf, status_ds s, hhwss, herr, status_errcode s⟩

/-! ## The bits of a word in wire order, and the level that a trace shows (R34, R39, R44) -/

@[simp] theorem csLevel_append (tr es : List Event) : csLevel (tr ++ es) = es.foldl csAfter (csLevel tr) :=
  List.foldl_append

/-- A reset leaves the line high, whatever the level before (R124). -/
theorem csLevel_append_resetEvents (tr : List Event) (s : State) : csLevel (tr ++ resetEvents s) = true := by
  cases h : s.csN <;> simp [resetEvents, h, csAfter]

/-- CSL and CSH leave the trace at the level they drive, if it told the level before (R94, R95). -/
theorem csLevel_driveCs {s : State} (level : Bool) (h : csLevel s.trace = s.csN) :
    csLevel (s.driveCs level).trace = level := by
  rcases driveCs_cases level s with ⟨hl, he⟩ | ⟨-, he⟩ <;> rw [he]
  · exact h.trans hl
  · cases level <;> simp [csAfter]

/-- The first `n + 1` bits of a word are its first `n` and then bit `15 - n` (R44). -/
theorem wireBits_take_succ (w : Word) {n : Nat} (h : n < 16) :
    (wireBits w).take (n + 1) = (wireBits w).take n ++ [w.getLsbD (15 - n)] := by
  have hlen : n < (wireBits w).length := by simpa [wireBits] using h
  rw [List.take_succ_eq_append_getElem hlen]
  simp only [wireBits, List.getElem_map, List.getElem_range]

/-- What the engine sends next: after `n` bits of a word, bit `15 - n` is the highest of what is left (R84). -/
theorem getLsbD_shiftLeft_top (w : Word) {n : Nat} (h : n < 16) : (w <<< n).getLsbD 15 = w.getLsbD (15 - n) := by
  rw [BitVec.getLsbD_shiftLeft]
  simp [Nat.not_lt.mpr (Nat.le_of_lt_succ h)]

/-! ## The invariant, by phase (R28, R41, R87) -/

/-- The transmit stage and the engine hold no word (R41): outside XWB they are so. -/
def State.atRest (s : State) : Prop :=
  s.txfull = false ∧ s.shact = false ∧ (s.bitcnt = 0 ∨ s.bitcnt = 16) ∧ s.shift = 0

/-- Outside XWB the invariant says that the block is at rest, and enabled but in IDLE. -/
theorem inv_iff_of_ne_xwb {s : State} (hp : s.phase ≠ .xwb) :
    s.inv ↔ s.configInv ∧ (s.phase ≠ .idle → s.spe = true) ∧ s.atRest ∧ s.errorInv ∧ csLevel s.trace = s.csN := by
  constructor
  · rintro ⟨hconf, ⟨hempty, hspe, -, -⟩, ⟨-, -, hidle⟩, herr, hcs, -⟩
    obtain ⟨hfull, hact⟩ := hempty hp
    obtain ⟨hcnt, hshift⟩ := hidle hact
    exact ⟨hconf, hspe, ⟨hfull, hact, hcnt, hshift⟩, herr, hcs⟩
  · rintro ⟨hconf, hspe, ⟨hfull, hact, hcnt, hshift⟩, herr, hcs⟩
    exact ⟨hconf, ⟨fun _ => ⟨hfull, hact⟩, hspe, fun h => absurd h hp, fun h => absurd h hp⟩,
      ⟨by simp [hfull], by simp [hact], fun _ => ⟨hcnt, hshift⟩⟩, herr, hcs, fun h => absurd h hp⟩

/-- In IDLE it says no more of the phase than that the block is at rest (R41). -/
theorem inv_iff_of_idle {s : State} (hp : s.phase = .idle) :
    s.inv ↔ s.configInv ∧ s.atRest ∧ s.errorInv ∧ csLevel s.trace = s.csN := by
  simp [inv_iff_of_ne_xwb (s := s) (by simp [hp]), hp]

/-- A word in the stage or in the engine is that of an XFER in XWB (R41, R77, R132). -/
theorem phase_eq_xwb_of_bsy {s : State} (h : s.inv) (hb : s.bsy = true) : s.phase = .xwb := by
  by_contra hp
  obtain ⟨-, -, ⟨hfull, hact, -, -⟩, -⟩ := (inv_iff_of_ne_xwb hp).mp h
  simp [State.bsy, hfull, hact] at hb

/-! ## Each kind of step keeps the invariant -/

/-- The error record goes with ERR after an error as well (R105). -/
theorem raiseCmdError_errorInv (e : CmdError) {s : State} (h : s.errorInv) : (raiseCmdError e s).errorInv := by
  cases herr : s.err
  · simpa [State.errorInv, herr] using e.code_ne_zero
  · simpa [State.errorInv, herr] using h

theorem raiseCmdError_inv (e : CmdError) {s : State} (h : s.inv) (hp : s.phase = .idle) : (raiseCmdError e s).inv := by
  obtain ⟨hconf, hrest, herr, hcs⟩ := (inv_iff_of_idle hp).mp h
  exact (inv_iff_of_idle (by simpa using hp)).mpr
    ⟨hconf, hrest, raiseCmdError_errorInv e herr, by simpa [csAfter] using hcs⟩

theorem complete_inv (r : Option Word) {s : State} (h : s.inv) (hp : s.phase = .idle) : (s.complete r).inv := by
  obtain ⟨hconf, hrest, herr, hcs⟩ := (inv_iff_of_idle hp).mp h
  exact (inv_iff_of_idle (by simpa using hp)).mpr ⟨hconf, hrest, herr, by simpa [csAfter] using hcs⟩

theorem driveCs_inv (level : Bool) {s : State} (h : s.inv) (hp : s.phase = .idle) : (s.driveCs level).inv := by
  obtain ⟨hconf, hrest, herr, hcs⟩ := (inv_iff_of_idle hp).mp h
  refine (inv_iff_of_idle (by simpa using hp)).mpr ⟨?_, ?_, ?_, ?_⟩
  · simpa [State.configInv] using hconf
  · simpa [State.atRest] using hrest
  · simpa [State.errorInv] using herr
  · simpa using csLevel_driveCs level hcs

theorem configure_inv {s : State} (h : s.inv) (hp : s.phase = .idle) : s.configure.inv := by
  obtain ⟨-, hrest, herr, hcs⟩ := (inv_iff_of_idle hp).mp h
  exact (inv_iff_of_idle (by simpa using hp)).mpr ⟨by simp [State.configInv], hrest, herr, hcs⟩

theorem latchWord_inv (w : Word) {s : State} (h : s.inv) (hp : s.phase = .idle) (hspe : s.spe = true) :
    (s.latchWord w).inv := by
  obtain ⟨hconf, hrest, herr, hcs⟩ := (inv_iff_of_idle hp).mp h
  exact (inv_iff_of_ne_xwb (by simp)).mpr ⟨hconf, fun _ => hspe, hrest, herr, hcs⟩

/-- Every command's effect in IDLE keeps the invariant. -/
theorem effectOf_inv (i : Instr) {s : State} (h : s.inv) (hp : s.phase = .idle) : (effectOf i s).inv := by
  cases i with
  | cfg => exact complete_inv none (configure_inv h hp) (by simpa using hp)
  | xfer w =>
    rcases effectOf_xfer_cases w s with ⟨hspe, he⟩ | ⟨-, he⟩ <;> rw [he]
    · exact latchWord_inv w h hp hspe
    · exact raiseCmdError_inv _ h hp
  | csl => exact complete_inv none (driveCs_inv false h hp) (by simpa using hp)
  | csh => exact complete_inv none (driveCs_inv true h hp) (by simpa using hp)
  | rdsr => exact complete_inv _ h hp

theorem effectOfWord_inv (c : CmdWord) {s : State} (h : s.inv) (hp : s.phase = .idle) : (effectOfWord c s).inv := by
  rcases effectOfWord_cases c with ⟨i, -, he⟩ | ⟨e, he⟩ <;> rw [he]
  · exact effectOf_inv i h hp
  · exact raiseCmdError_inv e h hp

/-- XWT to XWR (R77): nothing but the phase changes. -/
theorem xwr_inv {s : State} (h : s.inv) (hp : s.phase = .xwt) : ({ s with phase := .xwr } : State).inv := by
  obtain ⟨hconf, hspe, hrest, herr, hcs⟩ := (inv_iff_of_ne_xwb (by simp [hp])).mp h
  exact (inv_iff_of_ne_xwb (by simp)).mpr ⟨hconf, fun _ => hspe (by simp [hp]), hrest, herr, hcs⟩

/-- XWR's write (R79): the stage holds the word of the XFER, and the engine still rests. -/
theorem fillStage_inv {s : State} (h : s.inv) (hp : s.phase = .xwr) : s.fillStage.inv := by
  obtain ⟨hconf, hspe, ⟨-, hact, hcnt, hshift⟩, herr, hcs⟩ := (inv_iff_of_ne_xwb (by simp [hp])).mp h
  exact ⟨hconf, ⟨by simp, fun _ => hspe (by simp [hp]), by simp, by simp⟩,
    ⟨by simp [hact], by simp [hact], fun _ => ⟨hcnt, hshift⟩⟩, herr, hcs, by simp⟩

/-- The end of a transfer (R80): the engine rests, so the block is at rest in IDLE. -/
theorem transferEnd_inv {s : State} (h : s.inv) (hb : s.bsy = false) :
    ({ s with phase := .idle }.complete none).inv := by
  obtain ⟨hconf, -, ⟨-, -, hidle⟩, herr, hcs, -⟩ := h
  obtain ⟨hfull, hact⟩ := State.bsy_eq_false.mp hb
  obtain ⟨hcnt, hshift⟩ := hidle hact
  exact (inv_iff_of_idle rfl).mpr ⟨hconf, ⟨hfull, hact, hcnt, hshift⟩, herr, by simpa [csAfter] using hcs⟩

/-- LOAD (R83): no bit of the word is out yet. -/
theorem loadShift_inv {s : State} (h : s.inv) (hf : s.txfull = true) : s.loadShift.inv := by
  have hp := phase_eq_xwb_of_bsy h (State.bsy_eq_true.mpr (.inl hf))
  obtain ⟨hconf, ⟨-, hspe, hbuf, -⟩, -, herr, hcs, -⟩ := h
  exact ⟨hconf, ⟨by simp [hp], hspe, hbuf, by simp⟩, ⟨by simp, by simp, by simp⟩, herr, hcs, by simp⟩

/-- BIT (R84): the trace gains the next bit of the word, and the sixteenth leaves the shift register empty. -/
theorem shiftOut_inv {s : State} (h : s.inv) (ha : s.shact = true) : s.shiftOut.inv := by
  have hp := phase_eq_xwb_of_bsy h (State.bsy_eq_true.mpr (.inr ha))
  obtain ⟨hconf, ⟨-, hspe, hbuf, -⟩, ⟨hexcl, hshifting, -⟩, herr, hcs, hsent⟩ := h
  obtain ⟨hlt, hshift⟩ := hshifting ha
  have hfull : s.txfull = false := by simpa [ha] using hexcl
  have hcount : (s.bitcnt + 1).toNat = s.bitcnt.toNat + 1 := by bv_omega
  have hleft : s.shift <<< 1 = s.txbuf <<< (s.bitcnt + 1).toNat := by
    rw [hshift, hcount, BitVec.shiftLeft_add]
  have hbit : s.shift.getLsbD 15 = s.txbuf.getLsbD (15 - s.bitcnt.toNat) := by
    rw [hshift, getLsbD_shiftLeft_top s.txbuf hlt]
  have hact : s.shiftOut.shact = false ↔ s.bitcnt + 1 = 16 := by simp [ha]
  have hsuffix : ((wireBits s.txbuf).take (s.bitcnt + 1).toNat).map Event.bit <:+
      s.trace ++ [.bit (s.shift.getLsbD 15)] := by
    rw [hcount, wireBits_take_succ s.txbuf hlt, List.map_append, hbit]
    exact List.suffix_append_self_iff.mpr (hsent hp hfull)
  refine ⟨hconf, ⟨by simp [hp], hspe, hbuf, fun _ _ h => hact.mp h⟩, ⟨by simp [hfull], fun h => ⟨?_, hleft⟩, fun h => ?_⟩,
    herr, by simpa [csAfter] using hcs, fun _ _ => hsuffix⟩
  · have hne : (s.bitcnt + 1).toNat ≠ 16 := fun he =>
      Bool.false_ne_true ((hact.mpr (BitVec.eq_of_toNat_eq he)).symm.trans h)
    change (s.bitcnt + 1).toNat < 16
    omega
  · have hend := hact.mp h
    refine ⟨.inr hend, ?_⟩
    rw [State.shiftOut_shift, hleft, hend]
    exact BitVec.shiftLeft_eq_zero (Nat.le_refl 16)

theorem resetStep_inv (s : State) : (resetStep s).inv :=
  (inv_iff_of_idle rfl).mpr
    ⟨by simp [State.configInv], by simp [State.atRest], by simp [State.errorInv], csLevel_append_resetEvents s.trace s⟩

/-- Settles O40. -/
theorem resetMeetsTheInvariant : Obligations.ResetMeetsTheInvariant :=
  (inv_iff_of_idle rfl).mpr ⟨by decide, ⟨rfl, rfl, .inl rfl, rfl⟩, by decide, rfl⟩

/-- Settles O41, by the cases of a step. -/
theorem everyStepKeepsTheInvariant : Obligations.EveryStepKeepsTheInvariant := by
  intro s t h hstep
  have hturn : s.takeTurn.inv := h
  rcases step_cases hstep with ⟨-, c, -, hp, rfl⟩ | ⟨-, c, cs, -, -, rfl⟩ | ⟨-, hp, -, rfl⟩ | ⟨-, hp, rfl⟩ |
    ⟨-, -, hb, rfl⟩ | ⟨-, ha, rfl⟩ | ⟨-, -, -, hf, rfl⟩ | ⟨-, rfl⟩ | ⟨-, -, rfl⟩
  · exact effectOfWord_inv c (s := s.takeTurn.takeOffer) hturn hp
  · exact hturn
  · exact xwr_inv hturn hp
  · exact fillStage_inv hturn hp
  · exact transferEnd_inv hturn hb
  · exact shiftOut_inv hturn ha
  · exact loadShift_inv hturn hf
  · exact resetStep_inv s.takeTurn
  · exact hturn

/-! ## Runs -/

/-- What every step keeps, every run keeps. -/
theorem runFor_keeps {P : State → Prop} (hkeep : ∀ s t, P s → step s = .next t → P t) (n : Nat) {s t : State}
    (hs : P s) (hrun : runFor n s = .next t) : P t := by
  induction n generalizing s with
  | zero => cases hrun; exact hs
  | succ n ih =>
    cases hstep : step s with
    | next u => exact ih (hkeep s u hs hstep) ((runFor_step hstep n).symm.trans hrun)
    | fault r => cases r
    | refused r => cases (runFor_refused hstep n).symm.trans hrun

/-- While SPE = 1 the configuration is CFG's (R28). -/
theorem config_of_inv {s : State} (h : s.inv) (hspe : s.spe = true) :
    s.mstr = true ∧ s.cpol = false ∧ s.cpha = false ∧ s.lsbf = false ∧ s.ds = 15 ∧ s.hwss = false := by
  obtain ⟨⟨hmstr, hcpol, hcpha, hlsbf, hds, hhwss⟩, -⟩ := h
  exact ⟨hmstr.trans hspe, hcpol, hcpha, hlsbf, by simpa [hspe] using hds, hhwss⟩

/-- In IDLE nothing is in the stage or the engine, and the status word says so (R38, R41). -/
theorem idle_of_inv {s : State} (h : s.inv) (hp : s.phase = .idle) :
    s.txfull = false ∧ s.shact = false ∧ s.status.getLsbD 0 = true ∧ s.status.getLsbD 1 = false := by
  obtain ⟨-, ⟨hfull, hact, -, -⟩, -⟩ := (inv_iff_of_idle hp).mp h
  obtain ⟨htxe, hbsy, -⟩ := status_bits s
  exact ⟨hfull, hact, htxe.trans (by simp [State.txe, hfull]), hbsy.trans (State.bsy_eq_false.mpr ⟨hfull, hact⟩)⟩

/-- Settles O42: the invariant holds after reset with any host and any turns, and every step keeps it. -/
theorem everyRunKeepsTheSpecsInvariants : Obligations.EveryRunKeepsTheSpecsInvariants := by
  intro words turns n t hrun
  have hreset : ({ State.reset with hostWords := words, turns := turns } : State).inv := resetMeetsTheInvariant
  have ht : t.inv := runFor_keeps everyStepKeepsTheInvariant n hreset hrun
  exact ⟨config_of_inv ht, idle_of_inv ht⟩

end Sys2Proof.Machine

/-! ## Completions and the command in progress (R50, R51) -/
namespace Sys2Proof.Machine

@[simp] theorem completions_append (tr es : List Event) : completions (tr ++ es) = completions tr + completions es :=
  List.countP_append

@[simp] theorem completions_done (r : Option Word) : completions [.done r] = 1 := rfl

/-- A reset completes nothing (R126). -/
@[simp] theorem completions_resetEvents (s : State) : completions (resetEvents s) = 0 := by
  cases h : s.csN <;> simp [resetEvents, h, completions, Event.onWire]

/-- Chip-select's own event is no completion (R48). -/
theorem completions_driveCs (level : Bool) (s : State) :
    completions (s.driveCs level).trace = completions s.trace := by
  rcases driveCs_cases level s with ⟨-, h⟩ | ⟨-, h⟩ <;> rw [h]
  cases level <;> simp [completions, Event.onWire]

/-- A bit on the wire is no completion (R48, R84). -/
theorem completions_shiftOut (s : State) : completions s.shiftOut.trace = completions s.trace := by
  simp [completions, Event.onWire]

theorem inProgress_of_idle {s : State} (h : s.phase = .idle) : s.inProgress = 0 := by
  simp [State.inProgress, h]

theorem inProgress_of_busy {s : State} (h : s.phase ≠ .idle) : s.inProgress = 1 := by
  simp [State.inProgress, h]

/-- What completes in its own step leaves no command in progress (R50, R51). -/
theorem complete_settles (r : Option Word) {s : State} (hp : s.phase = .idle) :
    completions (s.complete r).trace + (s.complete r).inProgress = completions s.trace + 1 := by
  rw [inProgress_of_idle (by simpa using hp)]
  simp

/-- A command accepted in IDLE completes at once, or is in progress after its step (R51). -/
theorem effectOf_settles (i : Instr) {s : State} (hp : s.phase = .idle) :
    completions (effectOf i s).trace + (effectOf i s).inProgress = completions s.trace + 1 := by
  cases i with
  | cfg => exact complete_settles none (s := s.configure) hp
  | xfer w =>
    rcases effectOf_xfer_cases w s with ⟨-, h⟩ | ⟨-, h⟩ <;> rw [h]
    · rw [inProgress_of_busy (by simp), State.latchWord_trace]
    · exact complete_settles none (s := { s with err := true, errcode := _ }) hp
  | csl => rw [effectOf, complete_settles none (by simpa using hp), completions_driveCs]
  | csh => rw [effectOf, complete_settles none (by simpa using hp), completions_driveCs]
  | rdsr => exact complete_settles (some s.status) hp

/-- So does every accepted word: one in error completes at once (R51, R105). -/
theorem effectOfWord_settles (c : CmdWord) {s : State} (hp : s.phase = .idle) :
    completions (effectOfWord c s).trace + (effectOfWord c s).inProgress = completions s.trace + 1 := by
  rcases effectOfWord_cases c with ⟨i, -, h⟩ | ⟨e, h⟩ <;> rw [h]
  · exact effectOf_settles i hp
  · exact complete_settles none (s := { s with err := true, errcode := _ }) hp

/-- Settles O12, by the cases of a step: an accepted word adds one to the completions and the command in progress together, the
end of a transfer moves that one from the latter to the former, and every other step but reset's leaves both. -/
theorem eachAcceptedWordCompletesOnce : Obligations.EachAcceptedWordCompletesOnce := by
  intro s t h
  refine ⟨fun hrst => ?_, fun hn => ?_⟩
  · rcases step_cases h with ⟨hn, c, ho, hp, rfl⟩ | ⟨-, c, cs, ho, -, rfl⟩ | ⟨hn, hp, -, rfl⟩ | ⟨hn, hp, rfl⟩ |
      ⟨hn, hp, -, rfl⟩ | ⟨hn, -, rfl⟩ | ⟨hn, -, -, -, rfl⟩ | ⟨hn, -⟩ | ⟨-, hheld, rfl⟩
    · rw [effectOfWord_settles c (s := s.takeTurn.takeOffer) hp, inProgress_of_idle hp, if_pos ⟨hn, by simp [ho], hp⟩]
      rfl
    · rw [if_neg (by simp [ho])]
      rfl
    · rw [if_neg (by simp [hn]), inProgress_of_busy (s := s) (by simp [hp]), inProgress_of_busy (by simp)]
      rfl
    · rw [if_neg (by simp [hn]), inProgress_of_busy (s := s) (by simp [hp]), inProgress_of_busy (by simp)]
      rfl
    · rw [if_neg (by simp [hn]), inProgress_of_busy (s := s) (by simp [hp]),
        complete_settles none (s := { s.takeTurn with phase := .idle }) rfl]
      rfl
    · rw [if_neg (by simp [hn]), completions_shiftOut]
      rfl
    · rw [if_neg (by simp [hn])]
      rfl
    · exact absurd hn hrst
    · rw [if_neg fun ⟨hn, ho, hp⟩ => hheld hn ho hp]
      rfl
  · rw [step_of_rst h hn, resetStep_trace, completions_append, completions_resetEvents]
    exact ⟨rfl, inProgress_of_idle rfl⟩

/-! ## A word's bits, as bytes and as the value of a window (R45, R49) -/

/-- The high byte's bits go out first (R45). -/
theorem byteWireBits_highByte (w : Word) :
    byteWireBits (highByte w) = (List.range 8).map fun k => w.getLsbD (15 - k) := by
  refine List.map_congr_left fun k hk => ?_
  have hlt := List.mem_range.mp hk
  rw [highByte, BitVec.getLsbD_extractLsb', show 8 + (7 - k) = 15 - k by omega]
  simp [show 7 - k < 8 by omega]

/-- The low byte's bits are the last eight on the wire (R45). -/
theorem byteWireBits_lowByte (w : Word) :
    byteWireBits (lowByte w) = (List.range 8).map fun k => w.getLsbD (15 - (8 + k)) := by
  refine List.map_congr_left fun k _ => ?_
  rw [lowByte, BitVec.getLsbD_extractLsb', show 0 + (7 - k) = 15 - (8 + k) by omega]
  simp [show 7 - k < 8 by omega]

/-- Settles O7: the sixteen wire positions are eight and then eight more. -/
theorem wordGoesOutHighByteFirst : Obligations.WordGoesOutHighByteFirst := by
  intro w
  calc wireBits w
      = (List.range (8 + 8)).map (fun k => w.getLsbD (15 - k)) := rfl
    _ = (List.range 8).map (fun k => w.getLsbD (15 - k)) ++ (List.range 8).map (fun k => w.getLsbD (15 - (8 + k))) := by
      rw [List.range_add, List.map_append, List.map_map]
      rfl
    _ = byteWireBits (highByte w) ++ byteWireBits (lowByte w) := by
      rw [byteWireBits_highByte, byteWireBits_lowByte]

@[simp] theorem length_wireBits (w : Word) : (wireBits w).length = 16 := by
  simp [wireBits]

theorem getElem_wireBits (w : Word) {k : Nat} (h : k < (wireBits w).length) : (wireBits w)[k] = w.getLsbD (15 - k) := by
  simp [wireBits]

/-- The number that a list of bits spells, first bit highest, in sixteen bits (R49). -/
def bitsValue (bits : List Bool) : Word := bits.foldl (fun w b => (w <<< 1) ||| (BitVec.ofBool b).setWidth 16) 0

/-- The word of a window is the value of its bits, if they are sixteen (R49). -/
theorem windowWord_eq (bits : List Bool) : windowWord bits = if bits.length = 16 then some (bitsValue bits) else none := rfl

/-- Bit `k` of the value is the bit that came `k` places before the last. -/
theorem getLsbD_bitsValue (bits : List Bool) {k : Nat} (hk : k < 16) :
    (bitsValue bits).getLsbD k = bits.reverse.getD k false := by
  induction bits using List.reverseRecOn generalizing k with
  | nil => simp [bitsValue]
  | append_singleton bits b ih =>
    have hpush : bitsValue (bits ++ [b]) = (bitsValue bits <<< 1) ||| (BitVec.ofBool b).setWidth 16 := by
      simp [bitsValue]
    rw [hpush, List.reverse_concat]
    cases k with
    | zero => simp
    | succ k =>
      have hk' := Nat.lt_of_succ_lt hk
      simpa [hk, hk'] using ih hk'

/-- Sixteen bits stand in their value in wire order. -/
theorem wireBits_bitsValue {bits : List Bool} (h : bits.length = 16) : wireBits (bitsValue bits) = bits := by
  refine List.ext_getElem (by simp [h]) fun k _ hk => ?_
  rw [getElem_wireBits, getLsbD_bitsValue bits (by omega), List.getD_eq_getElem _ _ (by simp; omega), List.getElem_reverse]
  congr 1
  omega

/-- A word is told by its bits in wire order. -/
theorem wireBits_injective : Function.Injective wireBits := by
  intro v w h
  refine BitVec.eq_of_getLsbD_eq fun k hk => ?_
  have hget : ∀ u : Word, (wireBits u).getD (15 - k) false = u.getLsbD k := fun u => by
    rw [List.getD_eq_getElem _ _ (by simp; omega), getElem_wireBits, show 15 - (15 - k) = k by omega]
  rw [← hget v, ← hget w, h]

/-- The window of a word holds just the word's bits (R49). -/
theorem windowWord_eq_some_iff {bits : List Bool} {w : Word} : windowWord bits = some w ↔ bits = wireBits w := by
  rw [windowWord_eq]
  constructor
  · intro h
    split at h
    · next hlen => rw [← Option.some.inj h, wireBits_bitsValue hlen]
    · cases h
  · rintro rfl
    rw [if_pos (length_wireBits w), wireBits_injective (wireBits_bitsValue (length_wireBits w))]

/-! ## Frames as segments of the wire events (R49) -/

/-- The events complete the word `w` in the window `win`: after the bits already in it come the rest of the word's and CS_RISE. -/
def CompletesWord (win : Option (List Bool)) (w : Word) (es : List Event) : Prop :=
  ∃ sent rest, win = some sent ∧ sent ++ rest = wireBits w ∧ rest.map Event.bit ++ [.csRise] <+: es

theorem not_completesWord_none (w : Word) (es : List Event) : ¬ CompletesWord none w es := by
  rintro ⟨sent, rest, h, -⟩
  cases h

theorem not_completesWord_nil (win : Option (List Bool)) (w : Word) : ¬ CompletesWord win w [] := by
  rintro ⟨sent, rest, -, -, h⟩
  simp at h

/-- The next event is a bit of the word, or CS_RISE. -/
theorem not_completesWord_cons {e : Event} (hbit : ∀ b, e ≠ .bit b) (hrise : e ≠ .csRise) (win : Option (List Bool))
    (w : Word) (es : List Event) : ¬ CompletesWord win w (e :: es) := by
  rintro ⟨sent, rest, -, -, h⟩
  cases rest with
  | nil => exact hrise (List.cons_prefix_cons.mp h).1.symm
  | cons b rest => exact hbit b (List.cons_prefix_cons.mp h).1.symm

/-- CS_RISE completes the word whose bits the window holds. -/
theorem completesWord_csRise_iff {win : Option (List Bool)} {w : Word} {es : List Event} :
    CompletesWord win w (.csRise :: es) ↔ win = some (wireBits w) := by
  constructor
  · rintro ⟨sent, rest, hwin, hbits, h⟩
    cases rest with
    | nil => rw [hwin, ← hbits, List.append_nil]
    | cons b rest => cases (List.cons_prefix_cons.mp h).1
  · intro hwin
    exact ⟨wireBits w, [], hwin, List.append_nil _, by simp⟩

/-- A bit joins the window. -/
theorem completesWord_bit_iff {win : Option (List Bool)} {w : Word} {b : Bool} {es : List Event} :
    CompletesWord win w (.bit b :: es) ↔ CompletesWord (win.map (· ++ [b])) w es := by
  constructor
  · rintro ⟨sent, rest, rfl, hbits, h⟩
    cases rest with
    | nil => cases (List.cons_prefix_cons.mp h).1
    | cons b' rest =>
      obtain ⟨rfl, htail⟩ : b' = b ∧ rest.map Event.bit ++ [.csRise] <+: es := by simpa using h
      exact ⟨sent ++ [b'], rest, rfl, by simpa using hbits, htail⟩
  · rintro ⟨sent', rest, hwin, hbits, h⟩
    obtain ⟨sent, rfl, rfl⟩ := Option.map_eq_some_iff.mp hwin
    exact ⟨sent, b :: rest, rfl, by simpa using hbits, by simpa using h⟩

/-- A frame begins with CS_FALL, and then its word is completed in an empty window. -/
theorem frameEvents_prefix_cons_iff {w : Word} {e : Event} {es : List Event} :
    frameEvents w <+: e :: es ↔ e = .csFall ∧ CompletesWord (some []) w es := by
  refine List.cons_prefix_cons.trans (and_congr eq_comm ⟨fun h => ⟨[], wireBits w, rfl, rfl, h⟩, ?_⟩)
  rintro ⟨sent, rest, hwin, hbits, h⟩
  cases hwin
  rw [List.nil_append] at hbits
  rwa [hbits] at h

/-- The words read from a trace with a window open: the one that is completed in that window, and those of the frames to come. The
window is arbitrary, since the reading carries it along. -/
theorem mem_framesFrom_iff (tr : List Event) (win : Option (List Bool)) (w : Word) :
    w ∈ framesFrom win tr ↔ CompletesWord win w (wireEvents tr) ∨ frameEvents w <:+: wireEvents tr := by
  induction tr generalizing win with
  | nil => simp [framesFrom, wireEvents, not_completesWord_nil, frameEvents]
  | cons e es ih =>
    cases e with
    | done r => exact ih win
    | csFall =>
      change w ∈ framesFrom (some []) es ↔
        CompletesWord win w (.csFall :: wireEvents es) ∨ frameEvents w <:+: .csFall :: wireEvents es
      rw [ih, List.infix_cons_iff, frameEvents_prefix_cons_iff]
      simp [not_completesWord_cons]
    | csRise =>
      change w ∈ (win.bind windowWord).toList ++ framesFrom none es ↔
        CompletesWord win w (.csRise :: wireEvents es) ∨ frameEvents w <:+: .csRise :: wireEvents es
      rw [List.mem_append, ih, List.infix_cons_iff, frameEvents_prefix_cons_iff, completesWord_csRise_iff]
      simp [not_completesWord_none, Option.bind_eq_some_iff, windowWord_eq_some_iff]
    | bit b =>
      change w ∈ framesFrom (win.map (· ++ [b])) es ↔
        CompletesWord win w (.bit b :: wireEvents es) ∨ frameEvents w <:+: .bit b :: wireEvents es
      rw [ih, List.infix_cons_iff, frameEvents_prefix_cons_iff, completesWord_bit_iff]
      simp
    | reset =>
      change w ∈ framesFrom none es ↔
        CompletesWord win w (.reset :: wireEvents es) ∨ frameEvents w <:+: .reset :: wireEvents es
      rw [ih, List.infix_cons_iff, frameEvents_prefix_cons_iff]
      simp [not_completesWord_cons, not_completesWord_none]

/-- Settles O47: no window is open before the trace. -/
theorem framesAreTheContiguousSegments : Obligations.FramesAreTheContiguousSegments := by
  intro tr w
  rw [frames, mem_framesFrom_iff, or_iff_right (not_completesWord_none w _)]
  exact exists_congr fun before => exists_congr fun after => eq_comm

/-! ## CSL and CSH (R94 to R96) -/

theorem driveCs_of_eq {level : Bool} {s : State} (h : s.csN = level) : s.driveCs level = s := by
  simp [State.driveCs, h]

theorem driveCs_of_ne {level : Bool} {s : State} (h : s.csN ≠ level) :
    s.driveCs level = { s with csN := level }.emit (if level then .csRise else .csFall) := by
  simp [State.driveCs, h]

/-- A command that drives the line to `level` leaves it there, and done again only completes (R94 to R96). -/
theorem exec_again_of_driveCs {i : Instr} {level : Bool} (hi : ∀ s, effectOf i s = (s.driveCs level).complete none)
    {s t : State} (hp : s.phase = .idle) (h : exec i s = .next t) :
    t.csN = level ∧ exec i t = .next { t with offer := none, trace := t.trace ++ [.done none] } := by
  rw [exec_eq, accept_idle hp, hi] at h
  cases h
  refine ⟨by simp, ?_⟩
  rw [exec_eq, accept_idle (by simpa using hp), hi, driveCs_of_eq (by simp)]
  rfl

/-- `s` with the configuration fields and the error record of `u`. -/
def State.withSettingsOf (s u : State) : State :=
  { s with
    spe := u.spe, mstr := u.mstr, cpol := u.cpol, cpha := u.cpha, lsbf := u.lsbf, ds := u.ds, hwss := u.hwss
    err := u.err, errcode := u.errcode }

/-- Chip-select does not see the settings (R47, R96). -/
theorem driveCs_withSettingsOf (level : Bool) (s u : State) :
    (s.withSettingsOf u).driveCs level = (s.driveCs level).withSettingsOf u := by
  by_cases h : s.csN = level
  · rw [driveCs_of_eq h, driveCs_of_eq (s := s.withSettingsOf u) h]
  · rw [driveCs_of_ne h, driveCs_of_ne (s := s.withSettingsOf u) h]
    rfl

/-- Nor do CSL and CSH, accepted or held (R47, R57, R96). -/
theorem exec_withSettingsOf {i : Instr} (hi : i = .csl ∨ i = .csh) {s t : State} (h : exec i s = .next t) (u : State) :
    exec i (s.withSettingsOf u) = .next (t.withSettingsOf u) := by
  obtain ⟨level, heff⟩ : ∃ level, ∀ s, effectOf i s = (s.driveCs level).complete none := by
    rcases hi with rfl | rfl
    · exact ⟨false, fun _ => rfl⟩
    · exact ⟨true, fun _ => rfl⟩
  rw [exec_eq] at h
  cases h
  rw [exec_eq]
  by_cases hp : s.phase = .idle
  · rw [accept_idle hp, accept_idle (s := s.withSettingsOf u) hp, heff, heff]
    exact congrArg (fun v => Host.Outcome.next (v.complete none)) (driveCs_withSettingsOf level s.takeOffer u)
  · rw [accept_busy hp, accept_busy (s := s.withSettingsOf u) hp]

/-- Settles O20: each command drives the line to its level, and reads no settings to do so. -/
theorem chipSelectCommandsAreIdempotent : Obligations.ChipSelectCommandsAreIdempotent := by
  refine ⟨fun s t hp => ⟨exec_again_of_driveCs (fun _ => rfl) hp, exec_again_of_driveCs (fun _ => rfl) hp⟩, ?_⟩
  intro s t i spe mstr cpol cpha lsbf hwss err ds code hi h
  exact exec_withSettingsOf hi h
    { s with spe := spe, mstr := mstr, cpol := cpol, cpha := cpha, lsbf := lsbf, ds := ds, hwss := hwss,
             err := err, errcode := code }

end Sys2Proof.Machine

/-! ## Decoding undoes encoding (R56, R58, R65) -/
namespace Sys2Proof

/-- The fields of a word put together from fields are those fields (R56). -/
@[simp] theorem Cmd32.ofWord_toWord (f : Cmd32) : Cmd32.ofWord f.toWord = f := by
  obtain ⟨op, rsv, data⟩ := f
  have hop : (op ++ rsv ++ data).extractLsb' 24 8 = op :=
    (BitVec.extractLsb'_append_eq_of_le (by decide)).trans BitVec.extractLsb'_append_eq_left
  have hrsv : (op ++ rsv ++ data).extractLsb' 16 8 = rsv :=
    (BitVec.extractLsb'_append_eq_of_le (by decide)).trans BitVec.extractLsb'_append_eq_right
  have hdata : (op ++ rsv ++ data).extractLsb' 0 16 = data := BitVec.extractLsb'_append_eq_right
  simp only [Cmd32.ofWord, Cmd32.toWord, BitVec.setWidth_eq, hop, hrsv, hdata]

/-- Every command is well formed (R58 to R60). -/
theorem Instr.wellFormed_eq_true (i : Instr) : i.wellFormed = true := by
  cases i <;> rfl

/-- The opcode and the data of a command name that command (R58, R61). -/
theorem selectCommand_opcode_data (i : Instr) : selectCommand i.opcode i.data = .ok i := by
  cases i <;> rfl

/-- With no check failing, the OP names the command (R62). -/
theorem decode_of_wellFormed {c : CmdWord} (h : (Cmd32.ofWord c).wellFormed = true) :
    decode c = selectCommand (Cmd32.ofWord c).op (Cmd32.ofWord c).data := by
  simp only [Cmd32.wellFormed, Bool.and_eq_true] at h
  obtain ⟨⟨hop, hrsv⟩, hdata⟩ := h
  simp [decode, hop, hrsv, hdata]

/-- The word of a command decodes to it (R65). -/
@[simp] theorem decode_encode (i : Instr) : decode (encode i) = .ok i := by
  have hf : Cmd32.ofWord (encode i) = i.fields := Cmd32.ofWord_toWord i.fields
  rw [decode_of_wellFormed (hf ▸ i.wellFormed_eq_true), hf]
  exact selectCommand_opcode_data i

/-- At 32 bits the opcode table's numbering of a word is the word's own (R11, R45, R46). -/
@[simp] theorem tableWord_toNat (c : CmdWord) : tableWord 32 c.toNat = c := by
  simp [tableWord]

/-- A number of the opcode table reads as a command exactly when its word decodes to that command and has at most 32 bits
(R56, R64). -/
theorem decodeTableWord_eq_some_iff {nbits w : Nat} {i : Instr} :
    decodeTableWord nbits w = some i ↔ nbits ≤ 32 ∧ decode (tableWord nbits w) = .ok i := by
  unfold decodeTableWord
  split
  · next hn => cases h : decode (tableWord nbits w) <;> simp [hn, Except.toOption]
  · next hn => simp [hn]

/-- Settles O1: `encode` and `decode` go through the same fields, and a command's fields pass every check. -/
theorem decodeOfEncodeIsTheCommand : Obligations.DecodeOfEncodeIsTheCommand := fun i =>
  ⟨i.wellFormed_eq_true, decode_encode i,
    decodeTableWord_eq_some_iff.mpr ⟨le_refl 32, by rw [tableWord_toNat, decode_encode]⟩⟩

/-- Settles O2. -/
theorem decodedWordIsTheEncodedOne : Obligations.DecodedWordIsTheEncodedOne :=
  fun _ _ h => (eq_encode_of_decode h).symm

/-- Settles O4: each of the fixed words of 95_test_vectors.md section 2.1 is evaluated. -/
theorem vectorWordsDecode : Obligations.VectorWordsDecode := by
  unfold Obligations.VectorWordsDecode
  decide

/-! ## The checks of R62 over the word as a number -/

theorem Cmd32.ofWord_op_toNat (c : CmdWord) : (Cmd32.ofWord c).op.toNat = c.toNat / 16777216 := by
  have hc := c.isLt
  simp only [Cmd32.ofWord, BitVec.extractLsb'_toNat, Nat.shiftRight_eq_div_pow]
  omega

theorem Cmd32.ofWord_rsv_toNat (c : CmdWord) : (Cmd32.ofWord c).rsv.toNat = c.toNat / 65536 % 256 := by
  simp [Cmd32.ofWord, BitVec.extractLsb'_toNat, Nat.shiftRight_eq_div_pow]

theorem Cmd32.ofWord_data_toNat (c : CmdWord) : (Cmd32.ofWord c).data.toNat = c.toNat % 65536 := by
  simp [Cmd32.ofWord, BitVec.extractLsb'_toNat]

/-- The legal opcodes are 1 to 5 (R58). -/
theorem Cmd32.opLegal_iff_toNat (f : Cmd32) : f.opLegal = true ↔ 1 ≤ f.op.toNat ∧ f.op.toNat ≤ 5 := by
  rw [Cmd32.opLegal_iff]
  bv_omega

theorem Cmd32.rsvZero_iff_toNat (f : Cmd32) : f.rsvZero = true ↔ f.rsv.toNat = 0 := by
  rw [Cmd32.rsvZero_iff]
  bv_omega

theorem Cmd32.dataAllowed_iff_toNat (f : Cmd32) : f.dataAllowed = true ↔ f.op.toNat = 2 ∨ f.data.toNat = 0 := by
  rw [Cmd32.dataAllowed_iff]
  bv_omega

/-- A legal OP, read as a number, names its command (R58, R62). -/
theorem selectCommand_eq_of_opLegal {f : Cmd32} (h : f.opLegal = true) :
    selectCommand f.op f.data =
      if f.op.toNat = 1 then .ok .cfg
      else if f.op.toNat = 2 then .ok (.xfer f.data)
      else if f.op.toNat = 3 then .ok .csl
      else if f.op.toNat = 4 then .ok .csh
      else .ok .rdsr := by
  rcases f.opLegal_iff.mp h with h | h | h | h | h <;> rw [h] <;> rfl

/-- R62's chain of checks, on the numbers in the three fields. -/
def checksInOrder (op rsv dat : Nat) : Except CmdError Instr :=
  if ¬(1 ≤ op ∧ op ≤ 5) then .error .illegalOpcode
  else if rsv ≠ 0 then .error .reservedNonzero
  else if op ≠ 2 ∧ dat ≠ 0 then .error .reservedNonzero
  else if op = 1 then .ok .cfg
  else if op = 2 then .ok (.xfer (BitVec.ofNat 16 dat))
  else if op = 3 then .ok .csl
  else if op = 4 then .ok .csh
  else .ok .rdsr

/-- `decode` makes the checks of R62 in their order on the fields of the word. -/
theorem decode_eq_checksInOrder (c : CmdWord) :
    decode c =
      checksInOrder (Cmd32.ofWord c).op.toNat (Cmd32.ofWord c).rsv.toNat (Cmd32.ofWord c).data.toNat := by
  simp only [checksInOrder, ← Cmd32.opLegal_iff_toNat, ← not_or, ← Cmd32.dataAllowed_iff_toNat, ne_eq,
    ← Cmd32.rsvZero_iff_toNat, BitVec.ofNat_toNat, BitVec.setWidth_eq]
  by_cases hop : (Cmd32.ofWord c).opLegal = true
  · rw [← selectCommand_eq_of_opLegal hop]
    simp [decode, hop]
  · simp [decode, hop]

/-- Settles O3: the fields are the numbers R62 cuts from the word; XFER's own check of SPE is R76's branch. -/
theorem decodeFollowsItsChecksInOrder : Obligations.DecodeFollowsItsChecksInOrder := by
  refine ⟨fun c => ?_, fun s w hp hspe => ?_⟩
  · show decode c = checksInOrder (c.toNat / 16777216) (c.toNat / 65536 % 256) (c.toNat % 65536)
    rw [decode_eq_checksInOrder, Cmd32.ofWord_op_toNat, Cmd32.ofWord_rsv_toNat, Cmd32.ofWord_data_toNat]
  · rw [Machine.exec_eq, Machine.accept_idle hp, Machine.accept_idle hp,
      Machine.effectOf_xfer_disabled (by simpa using hspe)]

end Sys2Proof

/-! ## The text of a command and its word (R65 to R67) -/
namespace Sys2Proof.Machine

/-- A hexadecimal digit is read back as its value, and neither blanks nor comments begin with it (R65). -/
theorem hexDigit_spec {n : Nat} (h : n < 16) :
    digitValue (hexDigit n) = some n ∧ isBlank (hexDigit n) = false ∧ (hexDigit n != ';') = true := by
  revert n
  decide

/-- Characters that do not cut go to the piece they stand in. -/
theorem pieces_append_of_not_cut {cut : Char → Bool} {cs : List Char} (h : ∀ c ∈ cs, cut c = false)
    (piece rest : List Char) : pieces cut piece (cs ++ rest) = pieces cut (piece ++ cs) rest := by
  induction cs generalizing piece with
  | nil => simp
  | cons c cs ih =>
    simp only [List.forall_mem_cons] at h
    simp [pieces, h.1, ih h.2]

/-- A mnemonic and an operand with one blank between them are the two pieces of their line (R65). -/
theorem pieces_isBlank_pair {m t : List Char} (hm : ∀ c ∈ m, isBlank c = false) (ht : ∀ c ∈ t, isBlank c = false)
    (hm' : m ≠ []) (ht' : t ≠ []) : pieces isBlank [] (m ++ ' ' :: t) = [m, t] := by
  have hlast : pieces isBlank [] t = [t] := by
    simpa [pieces, consPiece, ht'] using pieces_append_of_not_cut ht [] []
  rw [pieces_append_of_not_cut hm, pieces, if_pos (by decide), hlast]
  simp [consPiece, hm']

/-- A line of a mnemonic and one operand, with no comment, is that mnemonic with that operand (R65). -/
theorem assembleLine_pair {m t : List Char} {k : Mnemonic} (hk : mnemonicOf m = some k) (hm' : m ≠ []) (ht' : t ≠ [])
    (hm : ∀ c ∈ m, isBlank c = false ∧ (c != ';') = true) (ht : ∀ c ∈ t, isBlank c = false ∧ (c != ';') = true) :
    assembleLine (m ++ ' ' :: t) = assembleMnemonic k [t] := by
  have hline : (m ++ ' ' :: t).takeWhile (· != ';') = m ++ ' ' :: t := by
    rw [List.takeWhile_eq_self_iff]
    intro c hc
    rcases List.mem_append.mp hc with hc | hc
    · exact (hm c hc).2
    · rcases List.mem_cons.mp hc with rfl | hc
      · decide
      · exact (ht c hc).2
  simp only [assembleLine, hline, pieces_isBlank_pair (fun c hc => (hm c hc).1) (fun c hc => (ht c hc).1) hm' ht', hk]

/-- One hexadecimal digit more (R65). -/
theorem digitsValue_hexDigit_cons {n : Nat} (h : n < 16) (acc : Nat) (cs : List Char) :
    digitsValue 16 acc (hexDigit n :: cs) = digitsValue 16 (acc * 16 + n) cs := by
  simp [digitsValue, (hexDigit_spec h).1, h]

/-- XFER's operand as `0x` and four hexadecimal digits (R65). -/
def hexText (w : Word) : List Char :=
  ['0', 'x', hexDigit (w.toNat / 4096), hexDigit (w.toNat / 256 % 16), hexDigit (w.toNat / 16 % 16), hexDigit (w.toNat % 16)]

theorem commandText_xfer (w : Word) : commandText (.xfer w) = ['X', 'F', 'E', 'R'] ++ ' ' :: hexText w := rfl

/-- The four digits of a word give its value (R65). -/
theorem literalValue_hexText (w : Word) : literalValue (hexText w) = some w.toNat := by
  have hw := w.isLt
  simp only [hexText, literalValue]
  rw [digitsValue_hexDigit_cons (by omega), digitsValue_hexDigit_cons (by omega), digitsValue_hexDigit_cons (by omega),
    digitsValue_hexDigit_cons (by omega), digitsValue]
  congr 1
  omega

theorem operandWord_hexText (w : Word) : operandWord [hexText w] = .ok w := by
  have hw : w.toNat < 65536 := w.isLt
  simp [operandWord, literalValue_hexText, hw]

theorem hexText_chars (w : Word) : ∀ c ∈ hexText w, isBlank c = false ∧ (c != ';') = true := by
  have hw := w.isLt
  simp only [hexText, List.forall_mem_cons, List.not_mem_nil, false_imp_iff, implies_true, and_true]
  exact ⟨by decide, by decide, (hexDigit_spec (by omega)).2, (hexDigit_spec (by omega)).2, (hexDigit_spec (by omega)).2,
    (hexDigit_spec (by omega)).2⟩

/-- Settles O6: XFER's line is its mnemonic and the four digits of its word; the other commands are their mnemonics alone. -/
theorem printedCommandAssemblesToItsWord : Obligations.PrintedCommandAssemblesToItsWord := by
  intro i
  cases i with
  | xfer w =>
    have hm : ∀ c ∈ ['X', 'F', 'E', 'R'], isBlank c = false ∧ (c != ';') = true := by simp [isBlank]
    rw [commandText_xfer, assembleLine_pair (k := .xfer) (by decide) (by simp) (by simp [hexText]) hm (hexText_chars w)]
    simp [assembleMnemonic, operandWord_hexText, Except.map]
  | cfg | csl | csh | rdsr => decide

/-- The word of XFER, as R65 writes it. -/
theorem encode_xfer (w : Word) : encode (.xfer w) = 0x02000000 ||| w.setWidth 32 := by
  have hw : w.toNat < 2 ^ 16 := w.isLt
  apply BitVec.eq_of_toNat_eq
  rw [encode_xfer_toNat, BitVec.toNat_or, BitVec.toNat_setWidth_of_le (by decide)]
  exact Nat.two_pow_add_eq_or_of_lt hw 512

/-- Settles O5: XFER's word is R65's, and the rest are fixed words and fixed text. -/
theorem pseudoCommandsExpandToTheirWords : Obligations.PseudoCommandsExpandToTheirWords := by
  refine ⟨fun w => ?_, by decide, by decide, fun args => rfl, by decide, by decide, by decide⟩
  have hcsl : encode .csl = 0x03000000 := by decide
  have hcsh : encode .csh = 0x04000000 := by decide
  simp only [expandFrame, List.map_cons, List.map_nil, encode_xfer, hcsl, hcsh]

/-! ## The command port (R57, R134) -/

/-- At HOST's turn the step is HOST's (R15, R117). -/
theorem step_of_host {s : State} (hn : nextTurn s = .host) : step s = hostStep s.takeTurn := by
  rw [step_eq, hn]
  rfl

/-- With a word offered, HOST's step is the acceptance of that word (R57). -/
theorem hostStep_offered {s : State} {c : CmdWord} (ho : s.offer = some c) : hostStep s = acceptWord c s := by
  simp [hostStep, ho]

theorem acceptWord_of_decode {c : CmdWord} {i : Instr} (h : decode c = .ok i) (s : State) : acceptWord c s = exec i s := by
  simp [acceptWord, h]

theorem acceptWord_of_error {c : CmdWord} {e : CmdError} (h : decode c = .error e) (s : State) :
    acceptWord c s = .next (accept (raiseCmdError e) s) := by
  simp [acceptWord, h]

/-- At HOST's turn with a word offered, the step is the acceptance of that word (R57). -/
theorem step_of_host_offered {s : State} {c : CmdWord} (hn : nextTurn s = .host) (ho : s.offer = some c) :
    step s = acceptWord c s.takeTurn := by
  rw [step_of_host hn, hostStep_offered (s := s.takeTurn) ho]

/-- Settles O8. -/
theorem stepRunsTheDecodedCommand : Obligations.StepRunsTheDecodedCommand := fun s _ hn ho =>
  ⟨fun _ h => (step_of_host_offered hn ho).trans (acceptWord_of_decode h s.takeTurn),
    fun _ h => (step_of_host_offered hn ho).trans (acceptWord_of_error h s.takeTurn)⟩

/-- A word put on the port in IDLE has the next turn (log 1, log 2). -/
theorem nextTurn_withOffer {s : State} (hp : s.phase = .idle) (c : CmdWord) : nextTurn (s.withOffer c) = .host := by
  rw [nextTurn_nil (s := s.withOffer c) rfl]
  simp [fairTurn, acceptReady, hp]

/-- Settles O9: the port's word has the turn, no turn is left to take, and the word is a command's (O8). -/
theorem wordAtThePortRunsNext : Obligations.WordAtThePortRunsNext := by
  intro s nbits w i hp hw
  obtain ⟨-, hdec⟩ := decodeTableWord_eq_some_iff.mp hw
  obtain ⟨hrun, -⟩ := stepRunsTheDecodedCommand (s.withFetchWord nbits w) _ (nextTurn_withOffer hp _) rfl
  rw [hrun i hdec, takeTurn_of_nil (s := s.withFetchWord nbits w) rfl]

/-- A command's effect neither offers a word nor takes one from the host's list (R57). -/
theorem effectOf_port (i : Instr) (s : State) :
    (effectOf i s).offer = s.offer ∧ (effectOf i s).hostWords = s.hostWords := by
  cases i with
  | xfer w => rcases effectOf_xfer_cases w s with ⟨-, h⟩ | ⟨-, h⟩ <;> simp [h]
  | cfg | csl | csh | rdsr => simp [effectOf]

/-- Nor does a word's, in error or not (R57, R105). -/
theorem effectOfWord_port (c : CmdWord) (s : State) :
    (effectOfWord c s).offer = s.offer ∧ (effectOfWord c s).hostWords = s.hostWords := by
  rcases effectOfWord_cases c with ⟨i, -, h⟩ | ⟨e, h⟩ <;> rw [h]
  · exact effectOf_port i s
  · simp

/-- Outside IDLE a HOST step holds the offer (R14, R57; log 6). -/
theorem step_of_held_offer {s : State} {c : CmdWord} (hn : nextTurn s = .host) (ho : s.offer = some c)
    (hp : s.phase ≠ .idle) : step s = .next s.takeTurn := by
  rw [step_of_host_offered hn ho, acceptWord_eq, accept_busy (s := s.takeTurn) hp]

/-- In IDLE it accepts the offer (R57). -/
theorem step_of_accepted_offer {s : State} {c : CmdWord} (hn : nextTurn s = .host) (ho : s.offer = some c)
    (hp : s.phase = .idle) : step s = .next (effectOfWord c s.takeTurn.takeOffer) := by
  rw [step_of_host_offered hn ho, acceptWord_eq, accept_idle (s := s.takeTurn) hp]

/-- A step that does not accept the word offered leaves the port and the host's list as they are (R57, R124). -/
theorem step_keeps_port {s t : State} {c : CmdWord} (h : step s = .next t) (ho : s.offer = some c) (hna : ¬s.accepts) :
    t.offer = s.offer ∧ t.hostWords = s.hostWords := by
  rcases step_cases h with ⟨hn, d, hd, hp, -⟩ | ⟨-, d, ds, hnone, -, -⟩ | ⟨-, -, -, rfl⟩ | ⟨-, -, rfl⟩ | ⟨-, -, -, rfl⟩ |
    ⟨-, -, rfl⟩ | ⟨-, -, -, -, rfl⟩ | ⟨-, rfl⟩ | ⟨-, -, rfl⟩
  · exact absurd ⟨hn, by simp [hd], hp⟩ hna
  · simp [ho] at hnone
  all_goals exact ⟨rfl, rfl⟩

/-- Settles O10, one clause for each thing that can happen to the port. -/
theorem offerIsHeldUntilItIsAccepted : Obligations.OfferIsHeldUntilItIsAccepted := by
  refine ⟨fun s c => step_of_held_offer, ?accepted, ?kept, ?offers⟩
  case accepted =>
    intro s c hn ho hp
    obtain ⟨hoffer, hwords⟩ := effectOfWord_port c s.takeTurn.takeOffer
    exact ⟨_, step_of_accepted_offer hn ho hp, hoffer, hwords⟩
  case kept =>
    intro s t c h ho hna
    obtain ⟨hoffer, hwords⟩ := step_keeps_port h ho hna
    exact ⟨hoffer.trans ho, hwords⟩
  case offers =>
    intro s hn ho
    rw [step_of_host hn]
    exact ⟨fun c cs hw => by simp [hostStep, ho, hw], fun hw => by simp [hostStep, ho, hw]⟩

end Sys2Proof.Machine

/-! ## The one word of a command without an operand (R58 to R60) -/
namespace Sys2Proof

/-- A word decodes to a command exactly when it is that command's word (R58, R65). -/
theorem decode_eq_ok_iff {c : CmdWord} {i : Instr} : decode c = .ok i ↔ c = encode i :=
  ⟨eq_encode_of_decode, fun h => h ▸ decode_encode i⟩

theorem Cmd32.opLegal_of_opcode {f : Cmd32} {i : Instr} (h : f.op = i.opcode) : f.opLegal = true := by
  rw [Cmd32.opLegal, h]
  cases i <;> rfl

/-- The OP of a command other than XFER names it, whatever the data (R58). -/
theorem selectCommand_of_opcode {i : Instr} (hi : i.opcode ≠ 0x02) (data : Word) :
    selectCommand i.opcode data = .ok i := by
  cases i with
  | xfer w => exact absurd rfl hi
  | cfg | csl | csh | rdsr => rfl

/-- A word with the OP of such a command is that command's, or breaks the format of its other fields (R59, R60). -/
theorem decode_of_opcode {c : CmdWord} {i : Instr} (hi : i.opcode ≠ 0x02) (hop : (Cmd32.ofWord c).op = i.opcode) :
    decode c = .ok i ∨ decode c = .error .reservedNonzero := by
  rcases decode_cases c with ⟨-, j, hj, hsel⟩ | ⟨hillegal, -⟩ | ⟨-, -, herr⟩
  · rw [hop, selectCommand_of_opcode hi] at hsel
    exact .inl (hj.trans hsel.symm)
  · cases hillegal.symm.trans (Cmd32.opLegal_of_opcode hop)
  · exact .inr herr

/-- A command other than XFER has one word, and its OP in any other word is RESERVED_NONZERO (R58 to R60). -/
theorem only_word_of_opcode {i : Instr} (hi : i.opcode ≠ 0x02) (c : CmdWord) :
    (decode c = .ok i ↔ c = encode i) ∧
    ((Cmd32.ofWord c).op = i.opcode → c ≠ encode i → decode c = .error .reservedNonzero) :=
  ⟨decode_eq_ok_iff, fun hop hne => (decode_of_opcode hi hop).resolve_left (mt decode_eq_ok_iff.mp hne)⟩

end Sys2Proof

/-! ## CFG (R69 to R73) -/
namespace Sys2Proof.Machine

/-- In IDLE a command is accepted, with its effect on the state without the offer (R57). -/
theorem exec_idle {i : Instr} {s : State} (hp : s.phase = .idle) : exec i s = .next (effectOf i s.takeOffer) := by
  rw [exec_eq, accept_idle hp]

/-- Outside IDLE it is held (R14, R57; log 6). -/
theorem exec_busy {i : Instr} {s : State} (hp : s.phase ≠ .idle) : exec i s = .next s := by
  rw [exec_eq, accept_busy hp]

/-- Settles O15: CFG's word is the general fact about a command without an operand, its effect the seven writes of `configure`
and a completion. -/
theorem cfgConfiguresAndEnables : Obligations.CfgConfiguresAndEnables := by
  refine ⟨?word, fun s hp => exec_idle hp, fun s hp => exec_busy hp, ?fromReset⟩
  case word => exact only_word_of_opcode (i := .cfg) (by decide)
  case fromReset => exact ⟨_, exec_idle rfl, by decide, rfl⟩

/-- On a block whose fields keep R28 with SPE = 1, the seven writes write what stands there (R72). -/
theorem configure_of_configInv {s : State} (hspe : s.spe = true) (h : s.configInv) : s.configure = s := by
  obtain ⟨hmstr, hcpol, hcpha, hlsbf, hds, hhwss⟩ := h
  ext1 <;> simp [hspe, hmstr, hcpol, hcpha, hlsbf, hds, hhwss]

/-- Settles O16: what is left of CFG's effect is its completion. -/
theorem cfgTwiceIsCfgOnce : Obligations.CfgTwiceIsCfgOnce := by
  intro s hp hspe hinv
  have hsame : s.takeOffer.configure = s.takeOffer := configure_of_configInv hspe hinv
  calc exec .cfg s = .next (s.takeOffer.configure.complete none) := exec_idle hp
    _ = .next (s.takeOffer.complete none) := by rw [hsame]

end Sys2Proof.Machine

/-! ## The turns of SEQ and ENG (R76 to R84) -/
namespace Sys2Proof.Machine

/-- At SEQ's turn the step is SEQ's (R15, R117). -/
theorem step_of_seq {s : State} (hn : nextTurn s = .seq) : step s = .next (seqStep s.takeTurn) := by
  rw [step_eq, hn]
  rfl

/-- At ENG's turn the step is ENG's (R15, R117). -/
theorem step_of_eng {s : State} (hn : nextTurn s = .eng) : step s = .next (engStep s.takeTurn) := by
  rw [step_eq, hn]
  rfl

theorem seqStep_idle {s : State} (hp : s.phase = .idle) : seqStep s = s :=
  seqStep_of_not_ready (by simp [seqReady, hp])

/-- The hold of XWT, while the stage is full (R77, R78). -/
theorem seqStep_xwt_full {s : State} (hp : s.phase = .xwt) (hf : s.txfull = true) : seqStep s = s :=
  seqStep_of_not_ready (by simp [seqReady, hp, hf])

/-- The hold of XWB, while the block is busy (R78, R80). -/
theorem seqStep_xwb_busy {s : State} (hp : s.phase = .xwb) (hb : s.bsy = true) : seqStep s = s :=
  seqStep_of_not_ready (by simp [seqReady, hp, hb])

/-- Outside XWB the stage is empty (R41, R77, R132). -/
theorem txfull_of_ne_xwb {s : State} (h : s.inv) (hp : s.phase ≠ .xwb) : s.txfull = false := by
  obtain ⟨-, -, ⟨hfull, -⟩, -⟩ := (inv_iff_of_ne_xwb hp).mp h
  exact hfull

/-- The engine has nothing to do (R83, R84). -/
theorem engReady_eq_false_iff {s : State} :
    engReady s = false ↔ s.shact = false ∧ (s.spe = false ∨ s.txfull = false) := by
  rw [engReady, Bool.or_eq_false_iff, Bool.and_eq_false_iff]

/-- In XWB an engine at rest has counted sixteen bits (R80, R87). -/
theorem bitcnt_of_rest {s : State} (h : s.inv) (hp : s.phase = .xwb) (hf : s.txfull = false) (ha : s.shact = false) :
    s.bitcnt = 16 := by
  obtain ⟨-, ⟨-, -, -, hcnt⟩, -⟩ := h
  exact hcnt hp hf ha

@[simp] theorem length_bitEvents (w : Word) : (bitEvents w).length = 16 := by
  simp [bitEvents]

/-- So the trace ends in the whole word (R80, R86). -/
theorem bitEvents_suffix_of_rest {s : State} (h : s.inv) (hp : s.phase = .xwb) (hf : s.txfull = false)
    (ha : s.shact = false) : bitEvents s.txbuf <:+ s.trace := by
  have hcnt := bitcnt_of_rest h hp hf ha
  obtain ⟨-, -, -, -, -, hsent⟩ := h
  have hall : (wireBits s.txbuf).take s.bitcnt.toNat = wireBits s.txbuf := by
    rw [hcnt]
    exact List.take_of_length_le (by simp)
  rw [bitEvents, ← hall]
  exact hsent hp hf

/-- Settles O30: one rule of the sequencer for each of its steps and holds, and what the invariant says of the two waits. -/
theorem sequencerStepsFollowTheirRules : Obligations.SequencerStepsFollowTheirRules := by
  refine ⟨fun s hn => ?rules, fun s h hp => txfull_of_ne_xwb h (by simp [hp]), fun s => bitEvents_suffix_of_rest⟩
  rw [step_of_seq hn]
  refine ⟨fun hp => ?_, fun hp hf => ?_, fun hp hf => ?_, fun hp => ?_, fun hp hf ha => ?_, fun hp hb => ?_⟩
  · rw [seqStep_idle (s := s.takeTurn) hp]
  · rw [seqStep_xwt_empty (s := s.takeTurn) hp hf]
  · rw [seqStep_xwt_full (s := s.takeTurn) hp hf]
  · rw [seqStep_xwr (s := s.takeTurn) hp]
    rfl
  · rw [seqStep_xwb_rest (s := s.takeTurn) hp (State.bsy_eq_false.mpr ⟨hf, ha⟩)]
    rfl
  · rw [seqStep_xwb_busy (s := s.takeTurn) hp (State.bsy_eq_true.mpr hb)]

/-- BIT before the sixteenth leaves SHACT (R84). -/
theorem shiftOut_of_ne {s : State} (h : s.bitcnt + 1 ≠ 16) :
    s.shiftOut = { s with shift := s.shift <<< 1, bitcnt := s.bitcnt + 1,
                          trace := s.trace ++ [.bit (s.shift.getLsbD 15)] } := by
  rw [State.shiftOut, if_neg h]

/-- The sixteenth BIT ends the word (R84). -/
theorem shiftOut_of_eq {s : State} (h : s.bitcnt + 1 = 16) :
    s.shiftOut = { s with shift := s.shift <<< 1, bitcnt := 16, shact := false,
                          trace := s.trace ++ [.bit (s.shift.getLsbD 15)] } := by
  rw [State.shiftOut, if_pos h, h]

/-- Settles O31: one rule of the engine for LOAD, two for BIT, and none enabled. -/
theorem engineStepsFollowTheirRules : Obligations.EngineStepsFollowTheirRules := by
  intro s hn
  rw [step_of_eng hn]
  refine ⟨fun hs hf ha => ?_, fun ha hne => ?_, fun ha heq => ?_, fun ha hno => ?_⟩
  · rw [engStep_loading (s := s.takeTurn) ha hs hf]
    rfl
  · rw [engStep_shifting (s := s.takeTurn) ha, shiftOut_of_ne (s := s.takeTurn) hne]
    rfl
  · rw [engStep_shifting (s := s.takeTurn) ha, shiftOut_of_eq (s := s.takeTurn) heq]
    rfl
  · rw [engStep_of_not_ready (s := s.takeTurn) (engReady_eq_false_iff.mpr ⟨ha, hno⟩)]

/-- The event of an ENG step (R83, R84). -/
def engEvents (s : State) : List Event := if s.shact then [.bit (s.shift.getLsbD 15)] else []

/-- Settles O32: whichever rule of the engine applies, it applies whatever the fields it does not read (R82). -/
theorem engineReadsOnlyItsOwnFields : Obligations.EngineReadsOnlyItsOwnFields := by
  intro s
  refine ⟨engEvents s, fun p x mstr cpol cpha lsbf hwss level err ds code tr o ws ts => ?_⟩
  rcases engStep_cases s with ⟨ha, he⟩ | ⟨ha, hs, hf, he⟩ | ⟨hr, he⟩
  · refine (engStep_shifting (by exact ha)).trans ?_
    rw [he, engEvents, if_pos ha]
    rfl
  · refine (engStep_loading (by exact ha) (by exact hs) (by exact hf)).trans ?_
    rw [he, engEvents, if_neg (by simp [ha]), List.append_nil]
    rfl
  · obtain ⟨ha, -⟩ := engReady_eq_false_iff.mp hr
    refine (engStep_of_not_ready (by exact hr)).trans ?_
    rw [he, engEvents, if_neg (by simp [ha]), List.append_nil]

/-- Settles O17: latched with SPE = 1, NOT_CONFIGURED with SPE = 0, and held outside IDLE. -/
theorem xferIsAcceptedOrRefused : Obligations.XferIsAcceptedOrRefused := by
  refine ⟨fun s w hp hs => ?_, fun s w hp hs => ?_, fun s w => exec_busy⟩
  · rw [exec_idle hp, effectOf_xfer_enabled (s := s.takeOffer) hs]
    rfl
  · rw [exec_idle hp, effectOf_xfer_disabled (s := s.takeOffer) hs]
    rfl

/-! ## The engine's arithmetic (R87) -/

/-- While a word is shifted out BITCNT is 0 to 15 (R87). -/
theorem bitcnt_lt_of_shifting {s : State} (h : s.inv) (ha : s.shact = true) : s.bitcnt.toNat < 16 := by
  obtain ⟨-, -, ⟨-, hshifting, -⟩, -⟩ := h
  exact (hshifting ha).1

/-- An engine at rest has an empty shift register (R87). -/
theorem shift_of_rest {s : State} (h : s.inv) (ha : s.shact = false) : s.shift = 0 := by
  obtain ⟨-, -, ⟨-, -, hidle⟩, -⟩ := h
  exact (hidle ha).2

/-- SHACT falls exactly at the sixteenth bit (R84, R87). -/
theorem shiftOut_shact_eq_false_iff {s : State} (ha : s.shact = true) :
    s.shiftOut.shact = false ↔ s.shiftOut.bitcnt = 16 := by
  simp [ha]

/-- Settles O33: a BIT step keeps the invariant, which bounds the counter before and empties the shift register after. -/
theorem bitCounterNeverWraps : Obligations.BitCounterNeverWraps := by
  refine ⟨fun s hs hf ha => ?load, fun s h ha => ?bit, fun s => bitcnt_of_rest⟩
  case load => rw [engStep_loading ha hs hf, State.loadShift_bitcnt]
  case bit =>
    have hlt := bitcnt_lt_of_shifting h ha
    have hcount : (s.bitcnt + 1).toNat = s.bitcnt.toNat + 1 := by bv_omega
    rw [engStep_shifting ha]
    exact ⟨hlt, hcount, shiftOut_shact_eq_false_iff ha, shift_of_rest (shiftOut_inv h ha)⟩

end Sys2Proof.Machine

/-! ## One word through the engine (R83, R84, R87) -/
namespace Sys2Proof.Machine

/-- The engine after LOAD and `n` BIT steps on the word in the stage (R83, R84). -/
def State.bitsSent (n : Nat) (s : State) : State :=
  { s with
    shift := s.txbuf <<< n
    txfull := false
    shact := decide (n < 16)
    bitcnt := BitVec.ofNat 5 n
    trace := s.trace ++ (bitEvents s.txbuf).take n }

/-- LOAD sends no bit (R83). -/
theorem loadShift_eq_bitsSent (s : State) : s.loadShift = s.bitsSent 0 := by
  simp [State.loadShift, State.bitsSent]

/-- The first `n + 1` events of a word are its first `n` and then bit `15 - n` (R44, R86). -/
theorem bitEvents_take_succ (w : Word) {n : Nat} (h : n < 16) :
    (bitEvents w).take (n + 1) = (bitEvents w).take n ++ [.bit (w.getLsbD (15 - n))] := by
  rw [bitEvents, ← List.map_take, wireBits_take_succ w h, List.map_append, List.map_take]
  rfl

/-- BIT sends the next bit of the word (R84). -/
theorem shiftOut_bitsSent (s : State) {n : Nat} (h : n < 16) : (s.bitsSent n).shiftOut = s.bitsSent (n + 1) := by
  have hcnt : BitVec.ofNat 5 n + 1 = BitVec.ofNat 5 (n + 1) := (BitVec.ofNat_add n 1).symm
  have hend : BitVec.ofNat 5 (n + 1) = 16 ↔ n + 1 = 16 := by
    rw [← BitVec.toNat_inj, BitVec.toNat_ofNat, Nat.mod_eq_of_lt (by omega)]
    rfl
  have hact : (if BitVec.ofNat 5 (n + 1) = 16 then false else decide (n < 16)) = decide (n + 1 < 16) := by
    by_cases hn : n + 1 = 16
    · simp [hn]
    · rw [if_neg (mt hend.mp hn), decide_eq_decide]
      omega
  simp only [State.shiftOut, State.bitsSent, hcnt, hact, ← BitVec.shiftLeft_add, getLsbD_shiftLeft_top s.txbuf h,
    List.append_assoc, ← bitEvents_take_succ s.txbuf h]

theorem engStep_bitsSent (s : State) {n : Nat} (h : n < 16) : engStep (s.bitsSent n) = s.bitsSent (n + 1) := by
  rw [engStep_shifting (by simpa [State.bitsSent] using h), shiftOut_bitsSent s h]

theorem iterate_engStep_bitsSent (s : State) {n : Nat} (h : n ≤ 16) : engStep^[n] (s.bitsSent 0) = s.bitsSent n := by
  induction n with
  | zero => rfl
  | succ n ih => rw [Function.iterate_succ_apply', ih (by omega), engStep_bitsSent s (by omega)]

/-- After the sixteenth bit the whole word is out, and the engine is at rest (R87). -/
theorem bitsSent_sixteen (s : State) :
    s.bitsSent 16 = { s with shift := 0, txfull := false, shact := false, bitcnt := 16,
                             trace := s.trace ++ bitEvents s.txbuf } := by
  have hshift : s.txbuf <<< 16 = 0 := BitVec.shiftLeft_eq_zero (Nat.le_refl 16)
  have hall : (bitEvents s.txbuf).take 16 = bitEvents s.txbuf := List.take_of_length_le (by simp)
  rw [State.bitsSent, hshift, hall]
  rfl

/-- Settles O34: LOAD, and then one bit a step. -/
theorem seventeenEngineStepsSendTheWord : Obligations.SeventeenEngineStepsSendTheWord := by
  intro s hs hf ha
  calc engStep^[17] s = engStep^[16] (engStep s) := Function.iterate_succ_apply engStep 16 s
    _ = engStep^[16] (s.bitsSent 0) := by rw [engStep_loading ha hs hf, loadShift_eq_bitsSent]
    _ = s.bitsSent 16 := iterate_engStep_bitsSent s (Nat.le_refl 16)
    _ = _ := bitsSent_sixteen s

end Sys2Proof.Machine

/-! ## The payload-blind view (R90) -/
namespace Sys2Proof

/-- A command with XFER's operand blotted out. -/
def Instr.blind : Instr → Instr
  | .xfer _ => .xfer 0
  | i       => i

/-- The fields of a blinded word: XFER's data is blotted out, and OP and RSV stay (R56). -/
theorem Cmd32.ofWord_blindWord (c : CmdWord) :
    Cmd32.ofWord (Machine.blindWord c) =
      if (Cmd32.ofWord c).op = 0x02 then { Cmd32.ofWord c with data := 0 } else Cmd32.ofWord c := by
  unfold Machine.blindWord
  split
  · have hop : (0xFFFF0000 : CmdWord).extractLsb' 24 8 = BitVec.allOnes 8 := by decide
    have hrsv : (0xFFFF0000 : CmdWord).extractLsb' 16 8 = BitVec.allOnes 8 := by decide
    have hdata : (0xFFFF0000 : CmdWord).extractLsb' 0 16 = 0 := by decide
    simp only [Cmd32.ofWord, BitVec.extractLsb'_and, hop, hrsv, hdata, BitVec.and_allOnes]
    simp
  · rfl

/-- So a blinded word decodes to the blinded command, or to the same error: no check of the decoder looks at XFER's data (R60,
R62). -/
theorem decode_blindWord (c : CmdWord) : decode (Machine.blindWord c) = (decode c).map Instr.blind := by
  by_cases hop : (Cmd32.ofWord c).op = 0x02
  · have hfields : Cmd32.ofWord (Machine.blindWord c) = { Cmd32.ofWord c with data := 0 } := by
      rw [Cmd32.ofWord_blindWord, if_pos hop]
    simp only [decode, hfields, Cmd32.opLegal, Cmd32.rsvZero, Cmd32.dataAllowed, hop]
    cases hrsv : (Cmd32.ofWord c).rsv == 0 <;> rfl
  · rw [Machine.blindWord, if_neg hop]
    rcases decode_cases c with ⟨-, i, hi, hsel⟩ | ⟨-, he⟩ | ⟨-, -, he⟩
    · rw [hi]
      obtain ⟨hcode, -⟩ := selectCommand_cases hsel
      cases i with
      | xfer w => exact absurd hcode hop
      | cfg | csl | csh | rdsr => rfl
    · rw [he]
      rfl
    · rw [he]
      rfl

end Sys2Proof

namespace Sys2Proof.Machine

/-! Each update of the state commutes with blotting the payload out. -/

theorem State.blind_emit (e : Event) (s : State) : (s.emit e).blind = s.blind.emit (blindEvent e) := by
  simp [State.emit, State.blind]

theorem State.blind_complete (r : Option Word) (s : State) : (s.complete r).blind = s.blind.complete r :=
  State.blind_emit (.done r) s

theorem State.blind_driveCs (level : Bool) (s : State) : (s.driveCs level).blind = s.blind.driveCs level := by
  rcases driveCs_cases level s with ⟨hl, he⟩ | ⟨hl, he⟩
  · rw [he, driveCs_of_eq (s := s.blind) hl]
  · rw [he, driveCs_of_ne (s := s.blind) hl, State.blind_emit]
    cases level <;> rfl

theorem blind_raiseCmdError (e : CmdError) (s : State) : (raiseCmdError e s).blind = raiseCmdError e s.blind :=
  State.blind_complete none _

theorem State.blind_shiftOut (s : State) : s.shiftOut.blind = s.blind.shiftOut := by
  simp only [State.shiftOut, State.blind, List.map_append]
  rfl

theorem blind_resetStep (s : State) : (resetStep s).blind = resetStep s.blind := by
  cases h : s.csN <;> simp [resetStep, resetEvents, State.blind, blindEvent, h]

theorem effectOf_blind (i : Instr) (s : State) : effectOf i.blind s.blind = (effectOf i s).blind := by
  cases i with
  | cfg => exact (State.blind_complete none s.configure).symm
  | xfer w =>
    rcases effectOf_xfer_cases w s with ⟨hs, he⟩ | ⟨hs, he⟩ <;> rw [he]
    · exact effectOf_xfer_enabled (s := s.blind) hs
    · rw [blind_raiseCmdError]
      exact effectOf_xfer_disabled (s := s.blind) hs
  | csl => rw [effectOf, State.blind_complete, State.blind_driveCs]; rfl
  | csh => rw [effectOf, State.blind_complete, State.blind_driveCs]; rfl
  | rdsr => exact (State.blind_complete (some s.status) s).symm

theorem effectOfWord_blind (c : CmdWord) (s : State) :
    effectOfWord (blindWord c) s.blind = (effectOfWord c s).blind := by
  unfold effectOfWord
  rw [decode_blindWord]
  cases decode c with
  | ok i => exact effectOf_blind i s
  | error e => exact (blind_raiseCmdError e s).symm

/-! So does each agent's step, and whose turn it is does not depend on the payload. -/

theorem seqStep_blind (s : State) : seqStep s.blind = (seqStep s).blind := by
  rcases seqStep_cases s with ⟨hp, hf, he⟩ | ⟨hp, he⟩ | ⟨hp, hb, he⟩ | ⟨hr, he⟩ <;> rw [he]
  · exact seqStep_xwt_empty (s := s.blind) hp hf
  · exact seqStep_xwr (s := s.blind) hp
  · rw [State.blind_complete]
    exact seqStep_xwb_rest (s := s.blind) hp hb
  · exact seqStep_of_not_ready (s := s.blind) hr

theorem engStep_blind (s : State) : engStep s.blind = (engStep s).blind := by
  rcases engStep_cases s with ⟨ha, he⟩ | ⟨ha, hs, hf, he⟩ | ⟨hr, he⟩ <;> rw [he]
  · rw [State.blind_shiftOut]
    exact engStep_shifting (s := s.blind) ha
  · exact engStep_loading (s := s.blind) ha hs hf
  · exact engStep_of_not_ready (s := s.blind) hr

theorem blind_offer {s : State} {c : CmdWord} (ho : s.offer = some c) : s.blind.offer = some (blindWord c) :=
  congrArg (Option.map blindWord) ho

theorem hostStep_blind {s t : State} (h : hostStep s = .next t) : hostStep s.blind = .next t.blind := by
  rcases hostStep_cases s with ⟨c, ho, hp, he⟩ | ⟨c, ho, hp, he⟩ | ⟨c, cs, ho, hw, he⟩ | ⟨ho, hw, he⟩ <;>
    cases he.symm.trans h
  · rw [hostStep_offered (blind_offer ho), acceptWord_eq, accept_idle (s := s.blind) hp]
    exact congrArg Host.Outcome.next (effectOfWord_blind c s.takeOffer)
  · rw [hostStep_offered (blind_offer ho), acceptWord_eq, accept_busy (s := s.blind) hp]
  · simp [hostStep, State.blind, ho, hw]
  · simp [hostStep, State.blind, ho, hw]

theorem agentStep_blind {a : Agent} {s t : State} (h : agentStep a s = .next t) :
    agentStep a s.blind = .next t.blind := by
  cases a with
  | host => exact hostStep_blind h
  | seq =>
    cases h
    exact congrArg Host.Outcome.next (seqStep_blind s)
  | eng =>
    cases h
    exact congrArg Host.Outcome.next (engStep_blind s)
  | rst =>
    cases h
    exact congrArg Host.Outcome.next (blind_resetStep s).symm

theorem nextTurn_blind (s : State) : nextTurn s.blind = nextTurn s := by
  have hoffer : s.blind.offer.isSome = s.offer.isSome := Option.isSome_map
  have hready : acceptReady s.blind = acceptReady s := by rw [acceptReady, hoffer]; rfl
  have hfair : fairTurn s.blind = fairTurn s := by rw [fairTurn, hready]; rfl
  rw [nextTurn, hfair]
  rfl

/-- The step of the view is the view of the step (R90). -/
theorem step_blind {s t : State} (h : step s = .next t) : step s.blind = .next t.blind := by
  rw [step_eq, nextTurn_blind]
  exact agentStep_blind (s := s.takeTurn) h

/-- Settles O49: the view after the step is a function of the view before it. -/
theorem payloadIsOpaque : Obligations.PayloadIsOpaque := by
  intro s s' t t' hview h h'
  have hnext := step_blind h
  rw [hview, step_blind h'] at hnext
  exact (Host.Outcome.next.inj hnext).symm

/-! ## The hang (R78, R112) -/

/-- Outside IDLE a HOST step does nothing but offer a word (R57, R134). -/
theorem hostStep_of_busy {s : State} (hp : s.phase ≠ .idle) :
    ∃ o ws, hostStep s = .next { s with offer := o, hostWords := ws } := by
  rcases hostStep_cases s with ⟨-, -, hidle, -⟩ | ⟨-, -, -, he⟩ | ⟨c, cs, -, -, he⟩ | ⟨-, -, he⟩
  · exact absurd hidle hp
  · exact ⟨s.offer, s.hostWords, he⟩
  · exact ⟨some c, cs, he⟩
  · exact ⟨s.offer, s.hostWords, he⟩

/-- A transfer that waits for the engine goes on waiting over a turn of HOST or SEQ (R78, R80). -/
theorem step_of_waiting {s : State} (hp : s.phase = .xwb) (hb : s.bsy = true)
    (hn : nextTurn s = .host ∨ nextTurn s = .seq) :
    ∃ t, step s = .next t ∧ t.phase = .xwb ∧ t.bsy = true ∧ t.trace = s.trace ∧ t.turns = s.turns.tail := by
  rcases hn with hn | hn
  · obtain ⟨o, ws, he⟩ := hostStep_of_busy (s := s.takeTurn) (by simp [hp])
    exact ⟨_, (step_of_host hn).trans he, hp, hb, rfl, rfl⟩
  · refine ⟨s.takeTurn, ?_, hp, hb, rfl, rfl⟩
    rw [step_of_seq hn, seqStep_xwb_busy (s := s.takeTurn) hp hb]

/-- Settles O50, by induction on the turns. -/
theorem stoppedEngineHangsTheTransfer : Obligations.StoppedEngineHangsTheTransfer := by
  intro s ts
  induction ts generalizing s with
  | nil => exact fun rest hp hb hturns _ => ⟨s, rfl, hp, hb, rfl, hturns⟩
  | cons a ts ih =>
    intro rest hp hb hturns hts
    obtain ⟨ha, hts⟩ := List.forall_mem_cons.mp hts
    have hn : nextTurn s = a := nextTurn_cons hturns
    obtain ⟨u, hstep, hup, hub, hutrace, huturns⟩ := step_of_waiting hp hb (hn ▸ ha)
    obtain ⟨t, hrun, htp, htb, httrace, htturns⟩ := ih u rest hup hub (by rw [huturns, hturns]; rfl) hts
    exact ⟨t, (runFor_step hstep ts.length).trans hrun, htp, htb, httrace.trans hutrace, htturns⟩

end Sys2Proof.Machine

/-! ## A transfer from its acceptance to its DONE, under every interleaving (R75 to R86) -/
namespace Sys2Proof.Machine

/-- The command port and the turns replaced: what is outside the block's own fields (R57, R134; log 2, log 3). -/
def State.withPort (o : Option CmdWord) (ws : List CmdWord) (ts : List Agent) (s : State) : State :=
  { s with offer := o, hostWords := ws, turns := ts }

/-- The block is enabled, and neither the stage nor the engine holds a word: an XFER can be sent. -/
def State.canSend (s : State) : Prop := s.spe = true ∧ s.txfull = false ∧ s.shact = false

theorem canSend_of_inv {s : State} (h : s.inv) (hp : s.phase = .idle) (hs : s.spe = true) : s.canSend := by
  obtain ⟨hf, ha, -⟩ := idle_of_inv h hp
  exact ⟨hs, hf, ha⟩

/-- The block after `k` of the twenty steps that an XFER of `w` takes once it is accepted in `s`: XWT, XWR, LOAD, sixteen times BIT,
and XWB with its DONE (R77 to R84). -/
def State.transferAt (w : Word) (s : State) : Nat → State
  | 0     => s.latchWord w
  | 1     => { s.latchWord w with phase := .xwr }
  | 2     => (s.latchWord w).fillStage
  | n + 3 =>
    if n ≤ 16 then (s.latchWord w).fillStage.bitsSent n
    else { (s.latchWord w).fillStage.bitsSent 16 with phase := .idle }.complete none

/-- The agent that takes the next of these steps. -/
def transferTurn (k : Nat) : Agent := if 2 ≤ k ∧ k < 19 then .eng else .seq

theorem transferAt_bits (w : Word) (s : State) {n : Nat} (h : n ≤ 16) :
    s.transferAt w (n + 3) = (s.latchWord w).fillStage.bitsSent n := if_pos h

/-- When all twenty are done the word is out, and the block is in IDLE and at rest. -/
theorem transferAt_end (w : Word) (s : State) :
    s.transferAt w 20 = { s with phase := .idle, xdata := w, txbuf := w, txfull := false, shift := 0, shact := false, bitcnt := 16,
                                 trace := s.trace ++ bitEvents w ++ [.done none] } := by
  rw [State.transferAt, if_neg (by decide), bitsSent_sixteen]
  rfl

/-- Nothing in a transfer looks at the port or at the turns. -/
theorem transferAt_withPort (w : Word) (s : State) (k : Nat) (o : Option CmdWord) (ws : List CmdWord) (ts : List Agent) :
    (s.withPort o ws ts).transferAt w k = (s.transferAt w k).withPort o ws ts := by
  unfold State.transferAt
  split
  · rfl
  · rfl
  · rfl
  · split <;> rfl

/-- What is true before each of the twenty steps: after acceptance, before the write, with the stage full, with a bit to send, and
with all of them out. -/
theorem transfer_cases {P : ∀ k, k < 20 → Prop} (latched : P 0 (by decide)) (writing : P 1 (by decide))
    (full : P 2 (by decide)) (sending : ∀ n (hn : n < 16), P (n + 3) (by omega)) (sent : P 19 (by decide))
    (k : Nat) (hk : k < 20) : P k hk := by
  match k with
  | 0 => exact latched
  | 1 => exact writing
  | 2 => exact full
  | n + 3 =>
    rcases Nat.lt_or_ge n 16 with hn | hn
    · exact sending n hn
    · obtain rfl : n = 16 := by omega
      exact sent

theorem transferTurn_sending {n : Nat} (h : n < 16) : transferTurn (n + 3) = .eng := if_pos (by omega)

theorem transferAt_phase {w : Word} {s : State} {k : Nat} (hk : k < 20) : (s.transferAt w k).phase ≠ .idle := by
  cases k, hk using transfer_cases with
  | latched | writing | full => simp [State.transferAt]
  | sending n hn => simp [transferAt_bits w s (Nat.le_of_lt hn), State.bitsSent]
  | sent => simp [transferAt_bits w s (Nat.le_refl 16), State.bitsSent]

/-- The bits that are out (R86). -/
theorem transferAt_trace {w : Word} {s : State} {k : Nat} (hk : k < 20) :
    (s.transferAt w k).trace = s.trace ++ (bitEvents w).take (k - 3) := by
  cases k, hk using transfer_cases with
  | latched | writing | full => simp [State.transferAt]
  | sending n hn => rw [transferAt_bits w s (Nat.le_of_lt hn)]; rfl
  | sent => rw [transferAt_bits w s (Nat.le_refl 16)]; rfl

/-- A transfer raises no error (R111), and takes no turn by itself. -/
theorem transferAt_frame (w : Word) (s : State) (k : Nat) :
    (s.transferAt w k).err = s.err ∧ (s.transferAt w k).errcode = s.errcode ∧ (s.transferAt w k).turns = s.turns := by
  unfold State.transferAt
  split
  · exact ⟨rfl, rfl, rfl⟩
  · exact ⟨rfl, rfl, rfl⟩
  · exact ⟨rfl, rfl, rfl⟩
  · split <;> exact ⟨rfl, rfl, rfl⟩

/-- Taking a turn moves no transfer on. -/
theorem takeTurn_transferAt (w : Word) (s : State) (k : Nat) : (s.transferAt w k).takeTurn = s.takeTurn.transferAt w k := by
  unfold State.transferAt
  split
  · rfl
  · rfl
  · rfl
  · split <;> rfl

theorem transferTurn_cases (k : Nat) : transferTurn k = .seq ∨ transferTurn k = .eng := by
  unfold transferTurn
  split <;> simp

section
variable {w : Word} {s : State} {k : Nat}

/-- At its turn the agent takes the next step of the transfer (R77 to R84). -/
theorem agentStep_transferTurn (h : s.canSend) (hk : k < 20) :
    agentStep (transferTurn k) (s.transferAt w k) = .next (s.transferAt w (k + 1)) := by
  obtain ⟨hs, hf, ha⟩ := h
  cases k, hk using transfer_cases with
  | latched => exact congrArg Host.Outcome.next (seqStep_xwt_empty (s := s.latchWord w) rfl hf)
  | writing => exact congrArg Host.Outcome.next (seqStep_xwr rfl)
  | full =>
    have hload : engStep (s.latchWord w).fillStage = (s.latchWord w).fillStage.bitsSent 0 := by
      rw [engStep_loading (by exact ha) (by exact hs) rfl, loadShift_eq_bitsSent]
    exact congrArg Host.Outcome.next hload
  | sending n hn =>
    rw [transferTurn_sending hn, transferAt_bits w s (Nat.le_of_lt hn), Nat.add_right_comm,
      transferAt_bits w s hn, ← engStep_bitsSent _ hn]
    rfl
  | sent => exact congrArg Host.Outcome.next (seqStep_xwb_rest rfl rfl)

/-- No other agent has a step of its own, so the interleaving is free but changes nothing (R15, R108). -/
theorem ready_transferAt (h : s.canSend) (hk : k < 20) :
    seqReady (s.transferAt w k) = decide (transferTurn k = .seq) ∧
    engReady (s.transferAt w k) = decide (transferTurn k = .eng) := by
  obtain ⟨hs, hf, ha⟩ := h
  cases k, hk using transfer_cases with
  | latched | writing | full => simp [State.transferAt, seqReady, engReady, State.bsy, transferTurn, hs, hf, ha]
  | sending n hn =>
    simp [transferTurn_sending hn, transferAt_bits w s (Nat.le_of_lt hn), seqReady, engReady, State.bsy, State.bitsSent, hn]
  | sent => simp [transferAt_bits w s (Nat.le_refl 16), seqReady, engReady, State.bsy, State.bitsSent, transferTurn]

/-- The fair choice moves the transfer on (R135; log 2). -/
theorem fairTurn_transferAt (h : s.canSend) (hk : k < 20) : fairTurn (s.transferAt w k) = transferTurn k := by
  obtain ⟨hseq, heng⟩ := ready_transferAt (w := w) h hk
  have hhost : acceptReady (s.transferAt w k) = false := by simp [acceptReady, transferAt_phase hk]
  rw [fairTurn, hhost, hseq, heng]
  rcases transferTurn_cases k with ht | ht <;> rw [ht] <;> rfl

/-- Every agent but reset, at its turn, leaves the transfer where it was or takes its next step; beside it only the port changes. -/
theorem agentStep_transferAt (h : s.canSend) (hk : k < 20) {a : Agent} (ha : a ≠ .rst) :
    ∃ o ws j, agentStep a (s.transferAt w k) = .next ((s.withPort o ws s.turns).transferAt w j) ∧ (j = k ∨ j = k + 1) ∧
      (a = transferTurn k → j = k + 1) := by
  obtain ⟨hseq, heng⟩ := ready_transferAt (w := w) h hk
  by_cases hturn : a = transferTurn k
  · exact ⟨s.offer, s.hostWords, k + 1, hturn ▸ agentStep_transferTurn h hk, .inr rfl, fun _ => rfl⟩
  cases a with
  | host =>
    obtain ⟨o, ws, he⟩ := hostStep_of_busy (transferAt_phase (w := w) (s := s) hk)
    obtain ⟨-, -, hturns⟩ := transferAt_frame w s k
    refine ⟨o, ws, k, ?_, .inl rfl, fun h => absurd h hturn⟩
    rw [transferAt_withPort, ← hturns]
    exact he
  | seq =>
    have he : seqStep (s.transferAt w k) = s.transferAt w k := seqStep_of_not_ready (by simpa [hseq] using Ne.symm hturn)
    exact ⟨s.offer, s.hostWords, k, congrArg _ he, .inl rfl, fun h => absurd h hturn⟩
  | eng =>
    have he : engStep (s.transferAt w k) = s.transferAt w k := engStep_of_not_ready (by simpa [heng] using Ne.symm hturn)
    exact ⟨s.offer, s.hostWords, k, congrArg _ he, .inl rfl, fun h => absurd h hturn⟩
  | rst => exact absurd rfl ha

/-- So does one step of the machine without a reset; with no turns left it is the transfer's next step. -/
theorem step_transferAt (h : s.canSend) (hk : k < 20) (hrst : .rst ∉ s.turns) :
    ∃ o ws j, step (s.transferAt w k) = .next ((s.withPort o ws s.turns.tail).transferAt w j) ∧ (j = k ∨ j = k + 1) ∧
      (s.turns = [] → j = k + 1) := by
  obtain ⟨-, -, hturns⟩ := transferAt_frame w s k
  have hnext : nextTurn (s.transferAt w k) ≠ .rst := nextTurn_ne_rst (hturns.symm ▸ hrst)
  obtain ⟨o, ws, j, he, hj, hmove⟩ := agentStep_transferAt (w := w) (s := s.takeTurn) h hk hnext
  refine ⟨o, ws, j, ?_, hj, fun hnil => hmove ?_⟩
  · rw [step_eq, takeTurn_transferAt]
    exact he
  · rw [nextTurn_nil (hturns.trans hnil), fairTurn_transferAt h hk]

/-- A run without a reset, up to the step that ends the transfer, passes through its twenty steps alone. -/
theorem run_transferAt (n : Nat) (h : s.canSend) (hk : k ≤ 20) (hrst : .rst ∉ s.turns) {t : State}
    (hrun : runFor n (s.transferAt w k) = .next t)
    (hbusy : ∀ m u, m < n → runFor m (s.transferAt w k) = .next u → u.phase ≠ .idle) :
    ∃ o ws ts j, j ≤ 20 ∧ t = (s.withPort o ws ts).transferAt w j := by
  induction n generalizing s k with
  | zero =>
    cases hrun
    exact ⟨s.offer, s.hostWords, s.turns, k, hk, rfl⟩
  | succ n ih =>
    have hlt : k < 20 := by
      refine Nat.lt_of_le_of_ne hk fun heq => hbusy 0 _ n.succ_pos rfl ?_
      rw [heq, transferAt_end]
    obtain ⟨o, ws, j, hstep, hj, -⟩ := step_transferAt (w := w) h hlt hrst
    refine ih (s := s.withPort o ws s.turns.tail) h (by omega) (fun hmem => hrst (List.mem_of_mem_tail hmem))
      ((runFor_step hstep n).symm.trans hrun) fun m u hm hu => ?_
    exact hbusy (m + 1) u (Nat.succ_lt_succ hm) ((runFor_step hstep m).trans hu)

/-- A transfer is done within its remaining steps and the turns that are fixed (R135; log 2). -/
theorem transfer_completes (n : Nat) (h : s.canSend) (hk : k ≤ 20) (hrst : .rst ∉ s.turns)
    (hn : s.turns.length + (20 - k) ≤ n) :
    ∃ m o ws ts, m ≤ n ∧ runFor m (s.transferAt w k) = .next ((s.withPort o ws ts).transferAt w 20) := by
  induction n generalizing s k with
  | zero =>
    obtain rfl : k = 20 := by omega
    exact ⟨0, s.offer, s.hostWords, s.turns, Nat.le_refl 0, rfl⟩
  | succ n ih =>
    rcases Nat.eq_or_lt_of_le hk with rfl | hlt
    · exact ⟨0, s.offer, s.hostWords, s.turns, Nat.zero_le _, rfl⟩
    obtain ⟨o, ws, j, hstep, hj, hmove⟩ := step_transferAt (w := w) h hlt hrst
    have hless : s.turns.tail.length + (20 - j) ≤ n := by
      cases hturns : s.turns with
      | nil =>
        have hon := hmove hturns
        simp only [List.tail_nil, List.length_nil]
        omega
      | cons a as =>
        rw [hturns, List.length_cons] at hn
        rw [List.tail_cons]
        omega
    obtain ⟨m, o', ws', ts', hm, hrun⟩ := ih (s := s.withPort o ws s.turns.tail) h (by omega)
      (fun hmem => hrst (List.mem_of_mem_tail hmem)) hless
    exact ⟨m + 1, o', ws', ts', Nat.succ_le_succ hm, (runFor_step hstep m).trans hrun⟩

end

/-- In IDLE with the block at rest a turn of SEQ or ENG does nothing (R41, R77, R83). -/
theorem step_of_idle {s : State} (h : s.canSend) (hp : s.phase = .idle) (hn : nextTurn s = .seq ∨ nextTurn s = .eng) :
    step s = .next s.takeTurn := by
  obtain ⟨-, hf, ha⟩ := h
  rcases hn with hn | hn
  · rw [step_of_seq hn, seqStep_idle (s := s.takeTurn) hp]
  · rw [step_of_eng hn, engStep_of_not_ready (s := s.takeTurn) (engReady_eq_false_iff.mpr ⟨ha, .inr hf⟩)]

/-- An XFER on the port of an enabled block at HOST's turn begins its transfer (R76). -/
theorem step_accepts_xfer {s : State} {w : Word} (h : s.canSend) (hp : s.phase = .idle) (ho : s.offer = some (encode (.xfer w)))
    (hn : nextTurn s = .host) : step s = .next ((s.withPort none s.hostWords s.turns.tail).transferAt w 0) := by
  obtain ⟨hs, -, -⟩ := h
  rw [step_of_accepted_offer hn ho hp, effectOfWord_of_decode (decode_encode _),
    effectOf_xfer_enabled (s := s.takeTurn.takeOffer) hs]
  rfl

/-- An offered XFER is accepted within one step more than the turns that are fixed, and each step before takes a turn (R57). -/
theorem xfer_accepted {s : State} {w : Word} (h : s.canSend) (hp : s.phase = .idle) (ho : s.offer = some (encode (.xfer w)))
    (hrst : .rst ∉ s.turns) :
    ∃ n ts, n + ts.length ≤ s.turns.length + 1 ∧ .rst ∉ ts ∧
      runFor n s = .next ((s.withPort none s.hostWords ts).transferAt w 0) := by
  induction hturns : s.turns generalizing s with
  | nil =>
    have hn : nextTurn s = .host := by
      rw [nextTurn_nil hturns]
      simp [fairTurn, acceptReady, ho, hp]
    refine ⟨1, [], Nat.le_refl 1, List.not_mem_nil, ?_⟩
    rw [runFor_step (step_accepts_xfer h hp ho hn), hturns]
    rfl
  | cons a as ih =>
    obtain ⟨ha, has⟩ := not_or.mp (mt List.mem_cons.mpr (hturns ▸ hrst))
    have hn := nextTurn_cons hturns
    have htail : s.turns.tail = as := by rw [hturns, List.tail_cons]
    by_cases hhost : a = .host
    · refine ⟨1, as, by simp; omega, has, ?_⟩
      rw [runFor_step (step_accepts_xfer h hp ho (hn.trans hhost)), htail]
      rfl
    · have hwait : nextTurn s = .seq ∨ nextTurn s = .eng := by
        cases a with
        | host => exact absurd rfl hhost
        | seq => exact .inl hn
        | eng => exact .inr hn
        | rst => exact absurd rfl ha
      obtain ⟨n, ts, hlen, hts, hrun⟩ := ih (s := s.takeTurn) h hp ho (by rwa [← htail] at has) htail
      refine ⟨n + 1, ts, by simp; omega, hts, ?_⟩
      rw [runFor_step (step_of_idle h hp hwait)]
      exact hrun

/-- Settles O43: the run passes through the transfer's steps alone, and each of them says what is on the wire. -/
theorem transferSendsExactlyItsSixteenBits : Obligations.TransferSendsExactlyItsSixteenBits := by
  intro s s₁ t w n hinv hp hs hrst hexec hrun hbusy
  have hsend : s.canSend := canSend_of_inv hinv hp hs
  have hstart : s₁ = s.takeOffer.transferAt w 0 := by
    rw [exec_idle hp, effectOf_xfer_enabled (s := s.takeOffer) hs] at hexec
    exact (Host.Outcome.next.inj hexec).symm
  rw [hstart] at hrun hbusy
  obtain ⟨o, ws, ts, k, hk, rfl⟩ := run_transferAt (s := s.takeOffer) n hsend (Nat.zero_le 20) hrst hrun hbusy
  obtain ⟨herr, hcode, -⟩ := transferAt_frame w (s.takeOffer.withPort o ws ts) k
  refine ⟨fun hidle => ?finished, fun hmid => ?inFlight, herr, hcode⟩
  case finished =>
    obtain rfl : k = 20 := Nat.le_antisymm hk (Nat.le_of_not_lt fun hlt => transferAt_phase hlt hidle)
    rw [transferAt_end]
    rfl
  case inFlight =>
    have hlt : k < 20 := Nat.lt_of_le_of_ne hk fun heq => hmid (by rw [heq, transferAt_end])
    exact ⟨k - 3, by omega, transferAt_trace hlt⟩

/-- Settles O44: the acceptance takes one step beside the turns before it, and the transfer twenty beside the turns after. -/
theorem everyInterleavingCompletesTheTransfer : Obligations.EveryInterleavingCompletesTheTransfer := by
  intro s w hinv hp hs ho hrst
  have hsend : s.canSend := canSend_of_inv hinv hp hs
  obtain ⟨n, ts, hlen, hts, haccept⟩ := xfer_accepted hsend hp ho hrst
  obtain ⟨m, o, ws, ts', hm, hfinish⟩ :=
    transfer_completes (s := s.withPort none s.hostWords ts) (w := w) _ hsend (Nat.zero_le 20) hts (Nat.le_refl _)
  have hbound : n + m ≤ s.turns.length + 21 := by
    have hts : (s.withPort none s.hostWords ts).turns.length = ts.length := rfl
    omega
  refine ⟨n + m, _, hbound, (runFor_add haccept m).trans hfinish, ?_⟩
  obtain ⟨-, hf, ha⟩ := hsend
  rw [transferAt_end, hp, hf, ha]
  rfl

end Sys2Proof.Machine

/-! ## CSL and CSH, each as a whole (R94, R95) -/
namespace Sys2Proof.Machine

/-- In IDLE, with the line at its other level, a chip-select command drives it, shows the event and completes (R94, R95). -/
theorem exec_of_driveCs_of_ne {i : Instr} {level : Bool} (hi : ∀ s, effectOf i s = (s.driveCs level).complete none)
    {s : State} (hp : s.phase = .idle) (h : s.csN ≠ level) :
    exec i s = .next { s with csN := level, offer := none,
                              trace := s.trace ++ [if level then .csRise else .csFall, .done none] } := by
  rw [exec_idle hp, hi, driveCs_of_ne (s := s.takeOffer) h]
  simp [State.complete, State.emit, State.takeOffer]

/-- With the line at its level already, it only completes (R94, R95). -/
theorem exec_of_driveCs_of_eq {i : Instr} {level : Bool} (hi : ∀ s, effectOf i s = (s.driveCs level).complete none)
    {s : State} (hp : s.phase = .idle) (h : s.csN = level) :
    exec i s = .next { s with offer := none, trace := s.trace ++ [.done none] } := by
  rw [exec_idle hp, hi, driveCs_of_eq (s := s.takeOffer) h]
  rfl

/-- Settles O18: CSL's word is the general fact about a command without an operand, its effect CS_N driven to 0. -/
theorem cslAssertsChipSelect : Obligations.CslAssertsChipSelect := by
  have heff : ∀ s, effectOf .csl s = (s.driveCs false).complete none := fun _ => rfl
  refine ⟨?word, fun s hp hcs => ?falls, fun s hp hcs => exec_of_driveCs_of_eq heff hp hcs, fun s => exec_busy, ?fromReset⟩
  case word => exact only_word_of_opcode (i := .csl) (by decide)
  case falls => exact exec_of_driveCs_of_ne heff hp (by simp [hcs])
  case fromReset => exact ⟨_, exec_of_driveCs_of_ne heff rfl (by decide), by decide, rfl⟩

/-- CSN is bit 3 of the status word, and no other bit shows the line (R38). -/
theorem status_raise_csN {s : State} (h : s.csN = false) :
    ({ s with csN := true } : State).status = s.status ||| 0x0008 := by
  apply BitVec.eq_of_getLsbD_eq
  intro k hk
  simp only [State.status, h, BitVec.getLsbD_or, BitVec.getLsbD_setWidth, BitVec.getLsbD_append, BitVec.getLsbD_ofBool]
  interval_cases k <;> simp [State.txe, State.bsy]

/-- Settles O19: CSH's word is the general fact about a command without an operand, its effect CS_N driven to 1; in IDLE the block is
at rest (R41), so no word is cut short. -/
theorem cshDeassertsChipSelect : Obligations.CshDeassertsChipSelect := by
  have heff : ∀ s, effectOf .csh s = (s.driveCs true).complete none := fun _ => rfl
  refine ⟨?word, fun s hp hcs => ?rises, fun s hp hcs => exec_of_driveCs_of_eq heff hp hcs, fun s => exec_busy,
    fun s h hp => ?cutsNothing, fun s hp hcs hstatus => ?fromSelected⟩
  case word => exact only_word_of_opcode (i := .csh) (by decide)
  case rises => exact exec_of_driveCs_of_ne heff hp (by simp [hcs])
  case cutsNothing =>
    obtain ⟨hfull, hact, -⟩ := idle_of_inv h hp
    exact State.bsy_eq_false.mpr ⟨hfull, hact⟩
  case fromSelected =>
    refine ⟨_, exec_of_driveCs_of_ne heff hp (by simp [hcs]), ?_⟩
    calc ({ s with csN := true } : State).status = s.status ||| 0x0008 := status_raise_csN hcs
      _ = 0x0F1D := by rw [hstatus]; rfl

end Sys2Proof.Machine

/-! ## What a run without a reset keeps count of: the turns, the host's words, the error (R51, R57, R110, R135) -/
namespace Sys2Proof.Machine

theorem effectOf_turns (i : Instr) (s : State) : (effectOf i s).turns = s.turns := by
  cases i with
  | xfer w => rcases effectOf_xfer_cases w s with ⟨-, h⟩ | ⟨-, h⟩ <;> simp [h]
  | cfg | csl | csh | rdsr => simp [effectOf]

theorem effectOfWord_turns (c : CmdWord) (s : State) : (effectOfWord c s).turns = s.turns := by
  rcases effectOfWord_cases c with ⟨i, -, h⟩ | ⟨e, h⟩ <;> rw [h]
  · exact effectOf_turns i s
  · exact raiseCmdError_turns e s

/-- A step takes one turn (R15; log 2). -/
theorem step_turns {s t : State} (h : step s = .next t) : t.turns = s.turns.tail := by
  rcases step_cases h with ⟨-, c, -, -, rfl⟩ | ⟨-, c, cs, -, -, rfl⟩ | ⟨-, -, -, rfl⟩ | ⟨-, -, rfl⟩ | ⟨-, -, -, rfl⟩ |
    ⟨-, -, rfl⟩ | ⟨-, -, -, -, rfl⟩ | ⟨-, rfl⟩ | ⟨-, -, rfl⟩
  · exact effectOfWord_turns c s.takeTurn.takeOffer
  all_goals rfl

theorem runFor_turns (n : Nat) {s t : State} (hrun : runFor n s = .next t) : t.turns = s.turns.drop n := by
  induction n generalizing s with
  | zero => cases hrun; rfl
  | succ n ih =>
    cases hstep : step s with
    | next u => rw [ih ((runFor_step hstep n).symm.trans hrun), step_turns hstep, List.drop_tail]
    | fault r => cases r
    | refused r => cases (runFor_refused hstep n).symm.trans hrun

theorem rst_notMem_of_run (n : Nat) {s t : State} (hrst : .rst ∉ s.turns) (hrun : runFor n s = .next t) : .rst ∉ t.turns := by
  rw [runFor_turns n hrun]
  exact fun hmem => hrst (List.mem_of_mem_drop hmem)

/-- What every step but reset's keeps, every run without a reset keeps. -/
theorem runFor_keeps_without_rst {P : State → Prop} (hkeep : ∀ s t, nextTurn s ≠ .rst → P s → step s = .next t → P t)
    (n : Nat) {s t : State} (hrst : .rst ∉ s.turns) (hs : P s) (hrun : runFor n s = .next t) : P t := by
  have hboth : .rst ∉ t.turns ∧ P t := by
    refine runFor_keeps (P := fun u => .rst ∉ u.turns ∧ P u) (fun u v ⟨hu, hPu⟩ hstep => ⟨?_, ?_⟩) n ⟨hrst, hs⟩ hrun
    · rw [step_turns hstep]
      exact fun hmem => hu (List.mem_of_mem_tail hmem)
    · exact hkeep u v (nextTurn_ne_rst hu) hPu hstep
  exact hboth.2

/-- The words the block has still to accept, the offered one first (R57, R134; log 3). -/
def State.pending (s : State) : List CmdWord := s.offer.toList ++ s.hostWords

/-- The commands begun: those with their DONE and the one in progress (R50, R51). -/
def State.begun (s : State) : Nat := completions s.trace + s.inProgress

theorem begun_of_idle {s : State} (hp : s.phase = .idle) : s.begun = completions s.trace := by
  rw [State.begun, inProgress_of_idle hp, Nat.add_zero]

theorem begun_of_busy {s : State} (hp : s.phase ≠ .idle) : s.begun = completions s.trace + 1 := by
  rw [State.begun, inProgress_of_busy hp]

/-- The step that accepts a word takes it from those pending (R57). -/
theorem pending_of_accepts {s t : State} (h : step s = .next t) (hacc : s.accepts) : t.pending = s.pending.drop 1 := by
  have ⟨_, hoffered, _⟩ := hacc
  obtain ⟨c, ho⟩ := Option.isSome_iff_exists.mp hoffered
  obtain ⟨hoffer, hwords⟩ := effectOfWord_port c s.takeTurn.takeOffer
  rw [step_of_accepts h hacc ho, State.pending, hoffer, hwords, State.pending, ho]
  rfl

/-- No other step takes one: it leaves the port, or moves the host's next word there (R57, R134). -/
theorem pending_of_not_accepts {s t : State} (h : step s = .next t) (hacc : ¬s.accepts) : t.pending = s.pending := by
  cases ho : s.offer with
  | some c =>
    obtain ⟨hoffer, hwords⟩ := step_keeps_port h ho hacc
    rw [State.pending, hoffer, hwords, State.pending]
  | none =>
    rcases step_cases h with ⟨-, c, hsome, -⟩ | ⟨-, c, cs, -, hw, rfl⟩ | ⟨-, -, -, rfl⟩ | ⟨-, -, rfl⟩ | ⟨-, -, -, rfl⟩ |
      ⟨-, -, rfl⟩ | ⟨-, -, -, -, rfl⟩ | ⟨-, rfl⟩ | ⟨-, -, rfl⟩
    · cases ho.symm.trans hsome
    · simp [State.pending, ho, hw]
    all_goals rfl

/-- Without a reset the words taken from those pending are just as many as the commands begun (R51, R57). -/
theorem run_begins_the_words_it_takes (n : Nat) {s t : State} (hrst : .rst ∉ s.turns) (hrun : runFor n s = .next t) :
    ∃ k, t.begun = s.begun + k ∧ t.pending = s.pending.drop k := by
  refine runFor_keeps_without_rst (P := fun u => ∃ k, u.begun = s.begun + k ∧ u.pending = s.pending.drop k)
    (fun u v hn hu hstep => ?_) n hrst ⟨0, rfl, rfl⟩ hrun
  obtain ⟨k, hbegun, hpending⟩ := hu
  have hcount : v.begun = u.begun + if u.accepts then 1 else 0 := (eachAcceptedWordCompletesOnce u v hstep).1 hn
  by_cases hacc : u.accepts
  · refine ⟨k + 1, ?_, ?_⟩
    · rw [hcount, if_pos hacc, hbegun, Nat.add_assoc]
    · rw [pending_of_accepts hstep hacc, hpending, List.drop_drop]
  · refine ⟨k, ?_, ?_⟩
    · rw [hcount, if_neg hacc, hbegun, Nat.add_zero]
    · rw [pending_of_not_accepts hstep hacc, hpending]

/-- No word accepted clears ERR (R105, R110). -/
theorem effectOfWord_keeps_err (c : CmdWord) {s : State} (h : s.err = true) : (effectOfWord c s).err = true := by
  rcases effectOfWord_cases c with ⟨i, -, he⟩ | ⟨e, he⟩ <;> rw [he]
  · cases i with
    | xfer w => rcases effectOf_xfer_cases w s with ⟨-, hx⟩ | ⟨-, hx⟩ <;> simp [hx, h]
    | cfg | csl | csh | rdsr => simp [effectOf, h]
  · exact raiseCmdError_err e s

/-- Nor does any step but reset's (R110). -/
theorem step_keeps_err {s t : State} (h : step s = .next t) (hn : nextTurn s ≠ .rst) (herr : s.err = true) : t.err = true := by
  rcases step_cases h with ⟨-, c, -, -, rfl⟩ | ⟨-, c, cs, -, -, rfl⟩ | ⟨-, -, -, rfl⟩ | ⟨-, -, rfl⟩ | ⟨-, -, -, rfl⟩ |
    ⟨-, -, rfl⟩ | ⟨-, -, -, -, rfl⟩ | ⟨hr, -⟩ | ⟨-, -, rfl⟩
  · exact effectOfWord_keeps_err c (s := s.takeTurn.takeOffer) herr
  any_goals exact herr
  exact absurd hr hn

/-! ### Finished and final runs (R111, R136) -/

/-- The states of a run have the rest of the run before them. -/
theorem runFor_rest {m n : Nat} {s u t : State} (hm : m ≤ n) (hu : runFor m s = .next u) (hrun : runFor n s = .next t) :
    runFor (n - m) u = .next t := by
  rw [← runFor_add hu, Nat.add_sub_cancel' hm, hrun]

/-- A run without a reset that ends with ERR = 0 is not faulted (R110, R111). -/
theorem not_runFaulted_of_end (n : Nat) {s t : State} (hrst : .rst ∉ s.turns) (hrun : runFor n s = .next t)
    (herr : t.err = false) : runFaulted n s = false := by
  refine Bool.eq_false_iff.mpr fun hfaulted => ?_
  obtain ⟨m, u, hm, hu, huerr⟩ := (runFaulted_iff n s).mp hfaulted
  have hterr : t.err = true := runFor_keeps_without_rst (P := fun v => v.err = true)
    (fun _ _ hn hv hstep => step_keeps_err hstep hn hv) (n - m) (rst_notMem_of_run m hrst hu) huerr (runFor_rest hm hu hrun)
  cases herr.symm.trans hterr

/-- A run without a reset that ends in IDLE with no word pending is past its last command's DONE (R51, R136). -/
theorem runPastLastDone_of_end (n : Nat) {s t : State} (hrst : .rst ∉ s.turns) (hrun : runFor n s = .next t)
    (hp : t.phase = .idle) (hnone : t.pending = []) : runPastLastDone n s t = true := by
  refine (runPastLastDone_iff n s t).mpr fun m u hm hu hawaits => ?_
  obtain ⟨k, hbegun, hpending⟩ := run_begins_the_words_it_takes (n - m) (rst_notMem_of_run m hrst hu) (runFor_rest hm hu hrun)
  rw [begun_of_idle hp] at hbegun
  rcases hawaits with ⟨-, hoffer, hup⟩ | hup
  · rw [begun_of_idle hup] at hbegun
    obtain ⟨c, ho⟩ := Option.isSome_iff_exists.mp hoffer
    have hk : k ≠ 0 := by
      rintro rfl
      rw [hnone, State.pending, ho] at hpending
      cases hpending
    omega
  · rw [begun_of_busy hup] at hbegun
    omega

/-- A run without a reset is final when it ends in a quiescent state with no word left and ERR = 0 (R111, R136; log 5). -/
theorem runFinal_of_end (n : Nat) {s t : State} (hrst : .rst ∉ s.turns) (hrun : runFor n s = .next t) (hquiet : t.quiescent)
    (hwords : t.hostWords = []) (herr : t.err = false) : runFinal n s t := by
  have ⟨hp, _, _, hoffer⟩ := hquiet
  have hnone : t.pending = [] := by rw [State.pending, hoffer, hwords]; rfl
  exact ⟨⟨hrun, hquiet, hwords, runPastLastDone_of_end n hrst hrun hp hnone⟩, not_runFaulted_of_end n hrst hrun herr⟩

end Sys2Proof.Machine

/-! ## FRAME, command by command (R97, R98) -/
namespace Sys2Proof.Machine

/-- The run from `s` comes to `t` within its fixed turns and `k` steps more (R135; log 2). -/
def RunsWithin (k : Nat) (s t : State) : Prop := ∃ n, n ≤ s.turns.length + k ∧ runFor n s = .next t

/-- The second run has only the turns that the first leaves. -/
theorem RunsWithin.trans {j k : Nat} {s t u : State} (h : RunsWithin j s t) (h' : RunsWithin k t u) :
    RunsWithin (j + k) s u := by
  obtain ⟨m, hm, hrun⟩ := h
  obtain ⟨n, hn, hrun'⟩ := h'
  have hleft : t.turns.length = s.turns.length - m := by rw [runFor_turns m hrun, List.length_drop]
  exact ⟨m + n, by omega, (runFor_add hrun n).trans hrun'⟩

theorem RunsWithin.rst_notMem {k : Nat} {s t : State} (h : RunsWithin k s t) (hrst : .rst ∉ s.turns) : .rst ∉ t.turns := by
  obtain ⟨n, -, hrun⟩ := h
  exact rst_notMem_of_run n hrst hrun

/-- In IDLE with the block at rest the fair choice is HOST (log 2). -/
theorem fairTurn_idle {s : State} (h : s.canSend) (hp : s.phase = .idle) : fairTurn s = .host := by
  obtain ⟨-, hf, ha⟩ := h
  simp [fairTurn, seqReady, engReady, hp, hf, ha]

/-- In IDLE with the block at rest HOST's turn comes within one step more than the fixed turns, and until then nothing changes. -/
theorem host_step_comes {s : State} {f : List Agent → State} (h : s.canSend) (hp : s.phase = .idle) (hrst : .rst ∉ s.turns)
    (hhost : ∀ ts, hostStep (s.withPort s.offer s.hostWords ts) = .next (f ts)) : ∃ ts, RunsWithin 1 s (f ts) := by
  induction hturns : s.turns generalizing s with
  | nil =>
    have hstep : step s = .next (f s.turns.tail) :=
      (step_of_host ((nextTurn_nil hturns).trans (fairTurn_idle h hp))).trans (hhost s.turns.tail)
    exact ⟨_, 1, Nat.le_add_left 1 _, runFor_step hstep 0⟩
  | cons a as ih =>
    have hn : nextTurn s = a := nextTurn_cons hturns
    have htail : s.takeTurn.turns = as := by rw [State.takeTurn_turns, hturns, List.tail_cons]
    have hwait (hidle : step s = .next s.takeTurn) : ∃ ts, RunsWithin 1 s (f ts) := by
      have hrst' : .rst ∉ s.takeTurn.turns := fun hmem => hrst (List.mem_of_mem_tail hmem)
      obtain ⟨ts, n, hlen, hrun⟩ := ih (s := s.takeTurn) h hp hrst' hhost htail
      refine ⟨ts, n + 1, ?_, (runFor_step hidle n).trans hrun⟩
      rw [htail] at hlen
      rw [hturns, List.length_cons]
      omega
    cases a with
    | host => exact ⟨_, 1, Nat.le_add_left 1 _, runFor_step ((step_of_host hn).trans (hhost s.turns.tail)) 0⟩
    | seq => exact hwait (step_of_idle h hp (.inl hn))
    | eng => exact hwait (step_of_idle h hp (.inr hn))
    | rst => exact absurd (hturns ▸ List.mem_cons_self) hrst

/-- An offered word is accepted (R57). -/
theorem offered_word_accepted {s : State} {c : CmdWord} (h : s.canSend) (hp : s.phase = .idle) (hrst : .rst ∉ s.turns)
    (ho : s.offer = some c) : ∃ ts, RunsWithin 1 s (effectOfWord c (s.withPort none s.hostWords ts)) := by
  refine host_step_comes h hp hrst fun ts => ?_
  rw [hostStep_offered (s := s.withPort _ _ ts) ho, acceptWord_eq, accept_idle (s := s.withPort _ _ ts) hp]
  rfl

/-- The host's next word is offered (R134). -/
theorem next_word_offered {s : State} {c : CmdWord} {cs : List CmdWord} (h : s.canSend) (hp : s.phase = .idle)
    (hrst : .rst ∉ s.turns) (ho : s.offer = none) (hw : s.hostWords = c :: cs) :
    ∃ ts, RunsWithin 1 s (s.withPort (some c) cs ts) := by
  refine host_step_comes h hp hrst fun ts => ?_
  simp only [State.withPort, hostStep, ho, hw]

/-- The first of the words pending is accepted, whether it is on the port already or not (R57, R134). -/
theorem pending_word_accepted {s : State} {c : CmdWord} {cs : List CmdWord} (h : s.canSend) (hp : s.phase = .idle)
    (hrst : .rst ∉ s.turns) (hpend : s.pending = c :: cs) :
    ∃ ts, RunsWithin 2 s (effectOfWord c (s.withPort none cs ts)) := by
  cases ho : s.offer with
  | none =>
    rw [State.pending, ho] at hpend
    obtain ⟨ts, hoffer⟩ := next_word_offered h hp hrst ho hpend
    obtain ⟨ts', haccept⟩ := offered_word_accepted (s := s.withPort (some c) cs ts) h hp (hoffer.rst_notMem hrst) rfl
    exact ⟨ts', hoffer.trans haccept⟩
  | some d =>
    rw [State.pending, ho] at hpend
    obtain ⟨rfl, rfl⟩ := List.cons.inj hpend
    obtain ⟨ts, n, hn, hrun⟩ := offered_word_accepted h hp hrst ho
    exact ⟨ts, n, by omega, hrun⟩

/-- Bits on the wire are no completions (R48). -/
theorem completions_bitEvents (w : Word) : completions (bitEvents w) = 0 := by
  simp [completions, bitEvents, List.countP_map, Function.comp_def, Event.onWire]

theorem driveCs_withPort (level : Bool) (s : State) (o : Option CmdWord) (ws : List CmdWord) (ts : List Agent) :
    (s.withPort o ws ts).driveCs level = (s.driveCs level).withPort o ws ts := by
  by_cases h : s.csN = level
  · rw [driveCs_of_eq h, driveCs_of_eq (s := s.withPort o ws ts) h]
  · rw [driveCs_of_ne h, driveCs_of_ne (s := s.withPort o ws ts) h]
    rfl

section
variable {s : State} {o : Option CmdWord} {ws cs : List CmdWord} {ts : List Agent}

/-- A pending chip-select command is accepted and done (R94, R95). -/
theorem pending_chipSelect_done {i : Instr} {level : Bool} (hi : ∀ s, effectOf i s = (s.driveCs level).complete none)
    (h : s.canSend) (hp : s.phase = .idle) (hrst : .rst ∉ ts) (hpend : o.toList ++ ws = encode i :: cs) :
    ∃ ts', RunsWithin 2 (s.withPort o ws ts) (((s.driveCs level).complete none).withPort none cs ts') := by
  obtain ⟨ts', hrun⟩ := pending_word_accepted (s := s.withPort o ws ts) h hp hrst hpend
  have heffect : effectOfWord (encode i) (s.withPort none cs ts') = ((s.driveCs level).complete none).withPort none cs ts' := by
    rw [effectOfWord_of_decode (decode_encode i), hi, driveCs_withPort]
    rfl
  exact ⟨ts', heffect ▸ hrun⟩

/-- A pending XFER is accepted and sent, and meanwhile no other word is taken (R76 to R86). -/
theorem pending_xfer_done {w : Word} (h : s.canSend) (hp : s.phase = .idle) (hrst : .rst ∉ ts)
    (hpend : o.toList ++ ws = encode (.xfer w) :: cs) :
    ∃ o' ws' ts', RunsWithin 22 (s.withPort o ws ts) ((s.transferAt w 20).withPort o' ws' ts') ∧ o'.toList ++ ws' = cs := by
  have ⟨hs, _, _⟩ := h
  obtain ⟨ts₁, haccept⟩ := pending_word_accepted (s := s.withPort o ws ts) h hp hrst hpend
  let u : State := s.withPort none cs ts₁
  have hlatch : effectOfWord (encode (.xfer w)) u = u.transferAt w 0 := by
    rw [effectOfWord_of_decode (decode_encode _), effectOf_xfer_enabled (s := u) hs]
    rfl
  replace haccept : RunsWithin 2 (s.withPort o ws ts) (u.transferAt w 0) := hlatch ▸ haccept
  have hrst₁ : .rst ∉ u.turns := haccept.rst_notMem hrst
  obtain ⟨n, o', ws', ts', hn, hsend⟩ := transfer_completes (s := u) (w := w) _ h (Nat.zero_le 20) hrst₁ (Nat.le_refl _)
  obtain ⟨k, hbegun, hpending⟩ := run_begins_the_words_it_takes (s := u.transferAt w 0) n hrst₁ hsend
  have hstart : (u.transferAt w 0).begun = completions s.trace + 1 := begun_of_busy (transferAt_phase (by decide))
  have hend : ((u.withPort o' ws' ts').transferAt w 20).begun = completions s.trace + 1 := by
    rw [transferAt_end, begun_of_idle rfl, completions_append, completions_append, completions_bitEvents]
    rfl
  obtain rfl : k = 0 := by omega
  rw [transferAt_withPort] at hsend
  rw [transferAt_end] at hpending
  exact ⟨o', ws', ts', haccept.trans ⟨n, hn, hsend⟩, hpending⟩

end

/-- The block after `FRAME w` begun in `s` (R66, R97, R98). -/
def State.framed (w : Word) (s : State) : State :=
  { s with
    csN := true, xdata := w, txbuf := w, shift := 0, bitcnt := 16
    trace := (s.driveCs false).trace ++ [.done none] ++ bitEvents w ++ [.done none, .csRise, .done none] }

/-- The three commands of FRAME one after the other, each acting on what the one before has left. -/
theorem framed_eq {s : State} {w : Word} (h : s.canSend) (hp : s.phase = .idle) :
    s.framed w = ((((s.driveCs false).complete none).transferAt w 20).driveCs true).complete none := by
  obtain ⟨-, hf, ha⟩ := h
  rw [transferAt_end, driveCs_of_ne (by simp)]
  ext1 <;> simp [State.framed, hp, hf, ha]

/-- The words of FRAME, pending in IDLE on an enabled block, are done within 26 steps more than the fixed turns: six offers and
acceptances, and the twenty steps of the transfer (R97, R98, R135). -/
theorem frame_done {s : State} {w : Word} {rest : List CmdWord} (h : s.canSend) (hp : s.phase = .idle) (hrst : .rst ∉ s.turns)
    (hpend : s.pending = (expandFrame w).map encode ++ rest) : ∃ ts, RunsWithin 26 s ((s.framed w).withPort none rest ts) := by
  have ⟨hs, _, _⟩ := h
  obtain ⟨ts₁, hcsl⟩ := pending_chipSelect_done (i := .csl) (fun _ => rfl) h hp hrst hpend
  have hrst₁ := hcsl.rst_notMem hrst
  obtain ⟨o, ws, ts₂, hxfer, hleft⟩ :=
    pending_xfer_done (o := none) (w := w) (s := (s.driveCs false).complete none) (by simpa [State.canSend] using h)
      (by simpa using hp) hrst₁ rfl
  have hrst₂ := hxfer.rst_notMem hrst₁
  obtain ⟨ts₃, hcsh⟩ :=
    pending_chipSelect_done (i := .csh) (level := true) (s := ((s.driveCs false).complete none).transferAt w 20) (fun _ => rfl)
      (by simpa [State.canSend, transferAt_end] using hs) (by simp [transferAt_end]) hrst₂ hleft
  rw [framed_eq h hp]
  exact ⟨ts₃, (hcsl.trans hxfer).trans hcsh⟩

/-- It raises no error, so it ends a final run if ERR = 0 and no word follows (R111, R136; log 5). -/
theorem runFinal_framed {n : Nat} {s : State} {w : Word} {rest : List CmdWord} {ts : List Agent} (h : s.canSend)
    (hp : s.phase = .idle) (hrst : .rst ∉ s.turns) (hrun : runFor n s = .next ((s.framed w).withPort none rest ts))
    (herr : s.err = false) (hrest : rest = []) : runFinal n s ((s.framed w).withPort none rest ts) := by
  obtain ⟨-, hf, ha⟩ := h
  exact runFinal_of_end n hrst hrun ⟨hp, hf, ha, rfl⟩ hrest herr

/-! ### The frame on the wire (R49, R97) -/

/-- Bits join the window begun before them (R49). -/
theorem framesFrom_bits (bits win : List Bool) (es : List Event) :
    framesFrom (some win) (bits.map Event.bit ++ es) = framesFrom (some (win ++ bits)) es := by
  induction bits generalizing win with
  | nil => simp
  | cons b bits ih => exact (ih (win ++ [b])).trans (by simp)

/-- The events of `FRAME w` begun with CS_N = 1 (R97). -/
def frameCommandEvents (w : Word) : List Event :=
  [Event.csFall, Event.done none] ++ bitEvents w ++ [Event.done none, Event.csRise, Event.done none]

/-- Without its completions they are those of one frame (R49). -/
theorem wireEvents_frameCommandEvents (w : Word) : wireEvents (frameCommandEvents w) = frameEvents w := by
  have hbits : (bitEvents w).filter Event.onWire = bitEvents w := by
    refine List.filter_eq_self.mpr fun e he => ?_
    obtain ⟨b, -, rfl⟩ := List.mem_map.mp he
    rfl
  simp [wireEvents, frameCommandEvents, frameEvents, -List.cons_append, List.filter_append, hbits, List.filter_cons, Event.onWire]

/-- The slave reads one word from them, `w` (R49). -/
theorem frames_frameCommandEvents (w : Word) : frames (frameCommandEvents w) = [w] := by
  calc frames (frameCommandEvents w)
      = framesFrom (some []) ((wireBits w).map Event.bit ++ [.done none, .csRise, .done none]) := by
        rw [frames, frameCommandEvents, bitEvents, List.append_assoc]
        simp only [List.cons_append, List.nil_append, framesFrom]
    _ = framesFrom (some (wireBits w)) [.done none, .csRise, .done none] := framesFrom_bits (wireBits w) [] _
    _ = (windowWord (wireBits w)).toList := by simp [framesFrom]
    _ = [w] := by rw [windowWord_eq_some_iff.mpr rfl, Option.toList_some]

theorem framed_trace_of_high {w : Word} {s : State} (h : s.csN = true) :
    (s.framed w).trace = s.trace ++ frameCommandEvents w := by
  simp [State.framed, frameCommandEvents, State.driveCs, h]

theorem framed_trace_of_low {w : Word} {s : State} (h : s.csN = false) :
    (s.framed w).trace = s.trace ++ [Event.done none] ++ bitEvents w ++ [Event.done none, Event.csRise, Event.done none] := by
  simp only [State.framed, driveCs_of_eq h]

/-- Settles O45: with the line high CSL opens a window, and the events of the three commands are one frame's. -/
theorem frameCommandSendsExactlyOneFrame : Obligations.FrameCommandSendsExactlyOneFrame := by
  intro s w rest hinv hp hs hcs ho hw hrst
  have hsend : s.canSend := canSend_of_inv hinv hp hs
  obtain ⟨ts, n, hn, hrun⟩ := frame_done hsend hp hrst (by rw [State.pending, ho, hw]; rfl)
  exact ⟨n, _, frameCommandEvents w, hn, hrun, hp, rfl, framed_trace_of_high hcs, rfl, wireEvents_frameCommandEvents w,
    frames_frameCommandEvents w, rfl, rfl, runFinal_framed hsend hp hrst hrun⟩

/-- Settles O46: with the line low already CSL only completes, and the rest is as in O45. -/
theorem frameInAnOpenWindowJoinsIt : Obligations.FrameInAnOpenWindowJoinsIt := by
  intro s w rest hinv hp hs hcs ho hw hrst
  have hsend : s.canSend := canSend_of_inv hinv hp hs
  obtain ⟨ts, n, hn, hrun⟩ := frame_done hsend hp hrst (by rw [State.pending, ho, hw]; rfl)
  exact ⟨n, _, hn, hrun, hp, rfl, framed_trace_of_low hcs, rfl, rfl, runFinal_framed hsend hp hrst hrun⟩

end Sys2Proof.Machine

/-! ## RDSR (R100 to R103) -/
namespace Sys2Proof.Machine

/-- In IDLE RDSR answers the status word and only completes (R101, R102). -/
theorem exec_rdsr_idle {s : State} (hp : s.phase = .idle) :
    exec .rdsr s = .next { s with offer := none, trace := s.trace ++ [.done (some s.status)] } :=
  exec_idle hp

/-- In IDLE a word that decodes to no command completes without an answer (R105). -/
theorem acceptWord_error_trace {c : CmdWord} {e : CmdError} {s : State} (h : decode c = .error e) (hp : s.phase = .idle) :
    ∃ t, acceptWord c s = .next t ∧ t.trace = s.trace ++ [.done none] :=
  ⟨raiseCmdError e s.takeOffer, by rw [acceptWord_of_error h, accept_idle hp], by simp⟩

/-- Settles O21: RDSR's word is the general fact about a command without an operand, its effect a completion with the status word;
any other word of its opcode raises RESERVED_NONZERO. -/
theorem rdsrAnswersTheStatus : Obligations.RdsrAnswersTheStatus := by
  have hword := only_word_of_opcode (i := .rdsr) (by decide)
  refine ⟨hword, fun s => exec_rdsr_idle, fun s => exec_busy, fun s c hop hne hp => ?badWord, ?fromReset⟩
  case badWord =>
    obtain ⟨-, hbad⟩ := hword c
    exact acceptWord_error_trace (hbad hop hne) hp
  case fromReset =>
    have hstatus : State.reset.status = 0x0009 := by decide
    exact ⟨_, exec_rdsr_idle rfl, by rw [hstatus]; rfl⟩

/-- `{ERRCODE, ERR}`, the error record as it stands in the status word from bit 13 up (R38, R103). -/
def State.errorBits (s : State) : Word := (s.errcode ++ BitVec.ofBool s.err).setWidth 16

/-- Since a code is recorded exactly when an error is (R37), the error record is one of four triples (R103). -/
theorem errorBits_cases {s : State} (h : s.errorInv) :
    s.errorBits = 0b000 ∨ s.errorBits = 0b011 ∨ s.errorBits = 0b101 ∨ s.errorBits = 0b111 := by
  cases herr : s.err with
  | false =>
    have hcode : s.errcode = 0 := by_contra fun hne => by cases herr.symm.trans (h.mpr hne)
    exact .inl (by simp [State.errorBits, herr, hcode])
  | true =>
    have hcode : s.errcode ≠ 0 := h.mp herr
    have hcodes : ∀ code : BitVec 2, code ≠ 0 → code = 1 ∨ code = 2 ∨ code = 3 := by decide
    rcases hcodes s.errcode hcode with hc | hc | hc <;> simp [State.errorBits, herr, hc]

/-- With stage and engine empty and the configuration fields as R28 has them, SPE, CS_N and the error record make the whole status
word: TXE is 1, BSY is 0, and the configuration bits are CFG's or those of reset (R103). -/
theorem status_of_configInv {s : State} (h : s.configInv) (hfull : s.txfull = false) (hact : s.shact = false) :
    s.status = (if s.spe then 0x0F15 else 0x0001) ||| ((BitVec.ofBool s.csN).setWidth 16 <<< 3) ||| (s.errorBits <<< 13) := by
  obtain ⟨hmstr, hcpol, hcpha, hlsbf, hds, hhwss⟩ := h
  simp only [State.status, State.errorBits, State.txe, State.bsy, hmstr, hcpol, hcpha, hlsbf, hds, hhwss, hfull, hact]
  generalize s.spe = spe, s.csN = csN, s.err = err, s.errcode = code
  revert spe csN err code
  decide

/-- Settles O22: RDSR is accepted in IDLE, where the block is at rest (R41), so the status word it answers has R103's form. -/
theorem rdsrReturnsOneOfThePossibleWords : Obligations.RdsrReturnsOneOfThePossibleWords := by
  intro s hinv hp
  obtain ⟨hconf, ⟨hfull, hact, -⟩, herr, -⟩ := (inv_iff_of_idle hp).mp hinv
  exact ⟨_, s.status, s.errorBits, exec_rdsr_idle hp, rfl, errorBits_cases herr, status_of_configInv hconf hfull hact⟩

end Sys2Proof.Machine

/-! ## Errors (R104 to R111) -/
namespace Sys2Proof.Machine

/-- In IDLE a word's HOST step is its effect on the state without the offer (R57, R63). -/
theorem acceptWord_idle (c : CmdWord) {s : State} (hp : s.phase = .idle) :
    acceptWord c s = .next (effectOfWord c s.takeOffer) := by
  rw [acceptWord_eq, accept_idle hp]

/-- Settles O24: in IDLE the word's effect is `raiseCmdError`, whose choice of the code is R105's. -/
theorem erroneousWordOnlyRecordsItsError : Obligations.ErroneousWordOnlyRecordsItsError := by
  refine fun s c e h => ⟨fun hp => ?accepted, fun hp => ?held⟩
  case accepted =>
    rw [acceptWord_of_error h, accept_idle hp]
    cases herr : s.err <;> simp [raiseCmdError, State.complete, State.emit, State.takeOffer, herr]
  case held => rw [acceptWord_of_error h, accept_busy hp]

/-- A HOST step answers a next state, whatever is offered (R104). -/
theorem hostStep_next (s : State) : ∃ t, hostStep s = .next t := by
  rcases hostStep_cases s with ⟨c, -, -, h⟩ | ⟨c, -, -, h⟩ | ⟨c, cs, -, -, h⟩ | ⟨-, -, h⟩ <;> exact ⟨_, h⟩

/-- Settles O11: each agent's step answers a next state. -/
theorem noStepStops : Obligations.NoStepStops := by
  intro s
  cases hn : nextTurn s with
  | host =>
    obtain ⟨t, ht⟩ := hostStep_next s.takeTurn
    exact ⟨t, (step_of_host hn).trans ht⟩
  | seq => exact ⟨_, step_of_seq hn⟩
  | eng => exact ⟨_, step_of_eng hn⟩
  | rst => exact ⟨resetStep s.takeTurn, by rw [step_eq, hn]; rfl⟩

/-! ### The first code stays (R105, R110) -/

/-- No command accepted after an error changes the code recorded (R105). -/
theorem effectOf_keeps_errcode (i : Instr) {s : State} (h : s.err = true) : (effectOf i s).errcode = s.errcode := by
  cases i with
  | xfer w => rcases effectOf_xfer_cases w s with ⟨-, hx⟩ | ⟨-, hx⟩ <;> simp [hx, h]
  | cfg | csl | csh | rdsr => simp [effectOf]

/-- Nor does any word, a second error's among them (R105, R110). -/
theorem effectOfWord_keeps_errcode (c : CmdWord) {s : State} (h : s.err = true) :
    (effectOfWord c s).errcode = s.errcode := by
  rcases effectOfWord_cases c with ⟨i, -, he⟩ | ⟨e, he⟩ <;> rw [he]
  · exact effectOf_keeps_errcode i h
  · simp [h]

/-- Nor does any step but reset's (R110). -/
theorem step_keeps_errcode {s t : State} (h : step s = .next t) (hn : nextTurn s ≠ .rst) (herr : s.err = true) :
    t.errcode = s.errcode := by
  rcases step_cases h with ⟨-, c, -, -, rfl⟩ | ⟨-, c, cs, -, -, rfl⟩ | ⟨-, -, -, rfl⟩ | ⟨-, -, rfl⟩ | ⟨-, -, -, rfl⟩ |
    ⟨-, -, rfl⟩ | ⟨-, -, -, -, rfl⟩ | ⟨hr, -⟩ | ⟨-, -, rfl⟩
  · exact effectOfWord_keeps_errcode c (s := s.takeTurn.takeOffer) herr
  any_goals rfl
  exact absurd hr hn

/-- Settles O26. -/
theorem onlyResetClearsAnError : Obligations.OnlyResetClearsAnError := by
  refine fun s t h => ⟨fun hn herr => ⟨step_keeps_err h hn herr, step_keeps_errcode h hn herr⟩, fun hn => ?_⟩
  rw [step_of_rst h hn]
  exact ⟨rfl, rfl⟩

/-! ### Commands after an error (R104, R111) -/

/-- `s` with an error of this code on record. -/
def State.withRecord (code : BitVec 2) (s : State) : State := { s with err := true, errcode := code }

/-- Chip-select does not see the error record (R47, R96). -/
theorem driveCs_withRecord (level : Bool) (code : BitVec 2) (s : State) :
    (s.withRecord code).driveCs level = (s.driveCs level).withRecord code := by
  by_cases h : s.csN = level
  · rw [driveCs_of_eq h, driveCs_of_eq (s := s.withRecord code) h]
  · rw [driveCs_of_ne h, driveCs_of_ne (s := s.withRecord code) h]
    rfl

/-- Nor does any command but RDSR: where XFER raises its own error, the record already there is kept (R104, R105). -/
theorem effectOf_withRecord {i : Instr} (hi : i ≠ .rdsr) (code : BitVec 2) (s : State) :
    effectOf i (s.withRecord code) = (effectOf i s).withRecord code := by
  cases i with
  | cfg => rfl
  | xfer w =>
    rcases effectOf_xfer_cases w s with ⟨hspe, he⟩ | ⟨hspe, he⟩
    · rw [he, effectOf_xfer_enabled (s := s.withRecord code) hspe]
      rfl
    · rw [he, effectOf_xfer_disabled (s := s.withRecord code) hspe]
      rfl
  | csl => exact congrArg (State.complete none) (driveCs_withRecord false code s)
  | csh => exact congrArg (State.complete none) (driveCs_withRecord true code s)
  | rdsr => exact absurd rfl hi

/-- Settles O27: accepted, the command has its usual effect beside the record; held, it has none. -/
theorem commandsRunAsUsualAfterAnError : Obligations.CommandsRunAsUsualAfterAnError := by
  intro s t i code hi h
  change exec i (s.withRecord code) = .next (t.withRecord code)
  by_cases hp : s.phase = .idle
  · rw [exec_idle hp] at h
    cases h
    rw [exec_idle (s := s.withRecord code) hp]
    exact congrArg _ (effectOf_withRecord hi code s.takeOffer)
  · rw [exec_busy hp] at h
    cases h
    exact exec_busy (s := s.withRecord code) hp

/-! ### The first error that applies (R107) -/

/-- A command's effect keeps the record and ERR together (R37, R105). -/
theorem effectOf_errorInv (i : Instr) {s : State} (h : s.errorInv) : (effectOf i s).errorInv := by
  cases i with
  | xfer w =>
    rcases effectOf_xfer_cases w s with ⟨-, he⟩ | ⟨-, he⟩ <;> rw [he]
    · exact h
    · exact raiseCmdError_errorInv _ h
  | cfg | rdsr => exact h
  | csl | csh => simpa [effectOf, State.errorInv] using h

/-- So does a word's, in error or not (R37, R105). -/
theorem effectOfWord_errorInv (c : CmdWord) {s : State} (h : s.errorInv) : (effectOfWord c s).errorInv := by
  rcases effectOfWord_cases c with ⟨i, -, he⟩ | ⟨e, he⟩ <;> rw [he]
  · exact effectOf_errorInv i h
  · exact raiseCmdError_errorInv e h

/-- The code of the first error that applies to a word of these fields, 0 when none does (R107). -/
def firstCode (f : Cmd32) (spe : Bool) : BitVec 2 :=
  if f.op.toNat = 0 ∨ 5 < f.op.toNat then 1
  else if f.rsv ≠ 0 ∨ (f.op ≠ 0x02 ∧ f.data ≠ 0) then 2
  else if f.op = 0x02 ∧ spe = false then 3
  else 0

theorem opLegal_eq_false_iff (f : Cmd32) : f.opLegal = false ↔ f.op.toNat = 0 ∨ 5 < f.op.toNat := by
  rw [← Bool.not_eq_true, f.opLegal_iff_toNat]
  omega

/-- A field that should be zero is not, exactly when one of the two checks of RSV and DATA fails (R59, R60). -/
theorem reserved_iff (f : Cmd32) :
    (f.rsvZero = false ∨ f.dataAllowed = false) ↔ f.rsv ≠ 0 ∨ (f.op ≠ 0x02 ∧ f.data ≠ 0) := by
  rw [← Bool.not_eq_true, ← Bool.not_eq_true, f.rsvZero_iff, f.dataAllowed_iff, not_or]

/-- The first code, by the checks that `decode` makes and XFER's own (R62, R76, R107). -/
theorem firstCode_eq (f : Cmd32) (spe : Bool) :
    firstCode f spe =
      if f.opLegal = false then 1
      else if f.rsvZero = false ∨ f.dataAllowed = false then 2
      else if f.op = 0x02 ∧ spe = false then 3
      else 0 := by
  simp only [firstCode, opLegal_eq_false_iff, reserved_iff]

/-- A word that decodes to no command has the effect of its error (R63, R105). -/
theorem effectOfWord_of_error {c : CmdWord} {e : CmdError} (h : decode c = .error e) : effectOfWord c = raiseCmdError e := by
  simp [effectOfWord, h]

/-- A command leaves the code 0 where none is recorded, unless it is XFER with SPE = 0 (R76). -/
theorem effectOf_errcode {i : Instr} {s : State} (herr : s.err = false) (hcode : s.errcode = 0) :
    (effectOf i s).errcode = if i.opcode = 0x02 ∧ s.spe = false then 3 else 0 := by
  cases i with
  | xfer w =>
    rcases effectOf_xfer_cases w s with ⟨hspe, he⟩ | ⟨hspe, he⟩ <;> rw [he]
    · simp [hspe, hcode]
    · simp [hspe, herr, Instr.opcode, CmdError.code]
  | cfg | csl | csh | rdsr => simp [effectOf, Instr.opcode, hcode]

/-- Where no error is recorded, a word leaves the code of the first error that applies to it (R107). -/
theorem effectOfWord_errcode (c : CmdWord) {s : State} (herr : s.err = false) (hcode : s.errcode = 0) :
    (effectOfWord c s).errcode = firstCode (Cmd32.ofWord c) s.spe := by
  rw [firstCode_eq]
  rcases decode_cases c with ⟨hwf, i, hdec, hsel⟩ | ⟨hop, hdec⟩ | ⟨hop, hbad, hdec⟩
  · simp only [Cmd32.wellFormed, Bool.and_eq_true] at hwf
    obtain ⟨⟨hop, hrsv⟩, hdata⟩ := hwf
    obtain ⟨hopcode, -⟩ := selectCommand_cases hsel
    rw [effectOfWord_of_decode hdec, effectOf_errcode herr hcode, ← hopcode]
    simp [hop, hrsv, hdata]
  · rw [effectOfWord_of_error hdec]
    simp [herr, hop, CmdError.code]
  · rw [effectOfWord_of_error hdec]
    simp [herr, hop, hbad, CmdError.code]

/-- Settles O25: the code is that of the first error that applies, and ERR goes with the code. -/
theorem firstApplicableErrorIsRaised : Obligations.FirstApplicableErrorIsRaised := by
  intro s c hp herr hcode
  change ∃ t, acceptWord c s = .next t ∧ t.errcode = firstCode (Cmd32.ofWord c) s.spe ∧
    (t.err = true ↔ firstCode (Cmd32.ofWord c) s.spe ≠ 0)
  have hfirst : (effectOfWord c s.takeOffer).errcode = firstCode (Cmd32.ofWord c) s.spe :=
    effectOfWord_errcode c (s := s.takeOffer) herr hcode
  have hinv : s.takeOffer.errorInv := by simp [State.errorInv, herr, hcode]
  refine ⟨_, acceptWord_idle c hp, hfirst, ?_⟩
  rw [← hfirst]
  exact effectOfWord_errorInv c hinv

/-! ### Faulted runs (R111, R136) -/

/-- A run through a faulted state is never final (R111). -/
theorem not_runFinal_of_faulted {m n : Nat} {s u t : State} (hm : m ≤ n) (hu : runFor m s = .next u) (hfault : u.faulted) :
    ¬runFinal n s t := by
  rintro ⟨-, hclean⟩
  cases hclean.symm.trans ((runFaulted_iff n s).mpr ⟨m, u, hm, hu, hfault⟩)

/-- Settles O51: the end of a run is one of its states, and without a reset ERR = 0 there means ERR = 0 throughout (R110). -/
theorem faultedRunsAreNeverFinal : Obligations.FaultedRunsAreNeverFinal := by
  refine ⟨fun m n s u t hm hu hfault => not_runFinal_of_faulted hm hu hfault, fun n s t hrst => ⟨fun hfinal => ?_, ?_⟩⟩
  · have ⟨hfinished, _⟩ := hfinal
    have ⟨hrun, _⟩ := hfinished
    exact ⟨hfinished, fun hfault => not_runFinal_of_faulted (le_refl n) hrun hfault hfinal⟩
  · rintro ⟨hfinished, hclean⟩
    have ⟨hrun, _⟩ := hfinished
    exact ⟨hfinished, not_runFaulted_of_end n hrst hrun (by simpa using hclean)⟩

end Sys2Proof.Machine

/-! ## The stage and chip-select under a word (R131, R132) -/
namespace Sys2Proof.Machine

/-- No command's effect writes the stage: XFER latches its word in XDATA (R76). -/
theorem effectOf_txbuf (i : Instr) (s : State) : (effectOf i s).txbuf = s.txbuf := by
  cases i with
  | xfer w => rcases effectOf_xfer_cases w s with ⟨-, h⟩ | ⟨-, h⟩ <;> simp [h]
  | cfg | csl | csh | rdsr => simp [effectOf]

/-- Nor does a word's, in error or not (R105). -/
theorem effectOfWord_txbuf (c : CmdWord) (s : State) : (effectOfWord c s).txbuf = s.txbuf := by
  rcases effectOfWord_cases c with ⟨i, -, h⟩ | ⟨e, h⟩ <;> rw [h]
  · exact effectOf_txbuf i s
  · exact raiseCmdError_txbuf e s

/-- The stage is written by XWR's step (R79) and by reset's (R124), in any state. -/
theorem step_txbuf_changed {s t : State} (h : step s = .next t) (hne : t.txbuf ≠ s.txbuf) :
    (nextTurn s = .seq ∧ s.phase = .xwr ∧ t.txbuf = s.xdata) ∨ nextTurn s = .rst := by
  rcases step_cases h with ⟨-, c, -, -, rfl⟩ | ⟨-, c, cs, -, -, rfl⟩ | ⟨-, -, -, rfl⟩ | ⟨hn, hp, rfl⟩ | ⟨-, -, -, rfl⟩ |
    ⟨-, -, rfl⟩ | ⟨-, -, -, -, rfl⟩ | ⟨hn, -⟩ | ⟨-, -, rfl⟩
  · exact absurd (effectOfWord_txbuf c s.takeTurn.takeOffer) hne
  any_goals exact absurd rfl hne
  · exact .inl ⟨hn, hp, rfl⟩
  · exact .inr hn

/-- Settles O35: XWR's step is not in XWB, and outside XWB the stage is empty (R41). -/
theorem stageIsNeverOverwritten : Obligations.StageIsNeverOverwritten := by
  intro s t hinv hstep hne hrst
  rcases step_txbuf_changed hstep hne with ⟨hn, hp, hbuf⟩ | hn
  · exact ⟨hn, hp, txfull_of_ne_xwb hinv (by simp [hp]), hbuf⟩
  · exact absurd hn hrst

/-- Settles O36: but for reset only an accepted word moves the line (O28), and it is accepted in IDLE, where the block is at rest
(R41). -/
theorem chipSelectNeverRisesUnderAWord : Obligations.ChipSelectNeverRisesUnderAWord := by
  intro s t hinv hstep hrst hlow hhigh
  have hp : s.phase = .idle := by
    rcases step_csN_changed hstep (by simp [hlow, hhigh]) with ⟨hn, -⟩ | ⟨⟨-, -, hp⟩, -⟩ | ⟨⟨-, -, hp⟩, -⟩
    · exact absurd hn hrst
    · exact hp
    · exact hp
  obtain ⟨hfull, hact, -⟩ := idle_of_inv hinv hp
  exact ⟨hp, hfull, hact⟩

end Sys2Proof.Machine

/-! ## Reset (R123 to R126) -/
namespace Sys2Proof.Machine

/-- Reset has its step in any state (R123). -/
theorem step_of_rst_turn {s : State} (hn : nextTurn s = .rst) : step s = .next (resetStep s.takeTurn) := by
  rw [step_eq, hn]
  rfl

/-- A reset keeps of a state what is outside the block and the trace, and nothing else (R124). -/
theorem resetStep_eq (s : State) :
    resetStep s = { State.reset with trace := s.trace ++ resetEvents s, offer := s.offer, hostWords := s.hostWords,
                                     turns := s.turns } := rfl

/-- Without CS_RISE when chip-select was not asserted (R124). -/
theorem resetEvents_eq (s : State) : resetEvents s = if s.csN then [.reset] else [.csRise, .reset] := by
  cases h : s.csN <;> simp [resetEvents, h]

/-- Settles O37. -/
theorem resetPutsEveryFieldBack : Obligations.ResetPutsEveryFieldBack := by
  refine ⟨fun s hn => ?_, rfl⟩
  rw [step_of_rst_turn hn, resetStep_eq, resetEvents_eq]
  rfl

/-- Settles O38: the fields are read off `State.reset`, and the one event of its trace shows SCK low (R35). -/
theorem powerOnValuesAreAsListed : Obligations.PowerOnValuesAreAsListed := by
  have hsck (n : Nat) (level : Bool) : ∀ p ∈ waveform n level State.reset.trace, p.sck = false := by
    simp [State.reset, waveform, eventPins]
  exact ⟨rfl, rfl, rfl, rfl, rfl, rfl, rfl, rfl, rfl, rfl, rfl, rfl, rfl, rfl, rfl, rfl, rfl, rfl, rfl, rfl, hsck⟩

/-- Settles O39: the trace before the reset ends in the bits that are out, by the invariant, and a reset completes nothing. -/
theorem resetCutsATransferAfterItsBits : Obligations.ResetCutsATransferAfterItsBits := by
  intro s t hinv hp hfull hn hstep
  obtain ⟨-, -, -, -, -, hbits⟩ := hinv
  obtain ⟨before, hbefore⟩ := hbits hp hfull
  have ⟨hdone, _⟩ := (eachAcceptedWordCompletesOnce s t hstep).2 hn
  refine ⟨before, ?_, hdone⟩
  calc t.trace
      = s.trace ++ resetEvents s := by rw [step_of_rst hstep hn]; rfl
    _ = before ++ (bitEvents s.txbuf).take s.bitcnt.toNat ++ resetEvents s := by
      rw [← hbefore, bitEvents, List.map_take]
    _ = before ++ (bitEvents s.txbuf).take s.bitcnt.toNat ++ (if s.csN then [] else [.csRise]) ++ [.reset] := by
      rw [resetEvents, ← List.append_assoc]

end Sys2Proof.Machine

/-! ## The end of a run (R136) -/
namespace Sys2Proof.Machine

/-- Settles O14: at rest, with no word offered or left, no agent but RST has a step. -/
theorem quiescentStateStaysAsItIs : Obligations.QuiescentStateStaysAsItIs := by
  rintro s ⟨hp, hfull, hact, hoffer⟩ hwords hrst
  cases hn : nextTurn s with
  | host =>
    obtain ⟨-, -, -, hoffers⟩ := offerIsHeldUntilItIsAccepted
    obtain ⟨-, hidle⟩ := hoffers s hn hoffer
    exact hidle hwords
  | seq => rw [step_of_seq hn, seqStep_idle (s := s.takeTurn) hp]
  | eng => rw [step_of_eng hn, engStep_of_not_ready (by simp [engReady, hact, hfull])]
  | rst => exact absurd hn hrst

/-- A step that accepts no word begins no command; a reset only drops the one in progress (R51, R126). -/
theorem step_begun_le {s t : State} (hstep : step s = .next t) (hacc : ¬s.accepts) : t.begun ≤ s.begun := by
  obtain ⟨hcount, hreset⟩ := eachAcceptedWordCompletesOnce s t hstep
  by_cases hn : nextTurn s = .rst
  · obtain ⟨hdone, hidle⟩ := hreset hn
    rw [State.begun, State.begun, hdone, hidle]
    omega
  · rw [State.begun, hcount hn, if_neg hacc]
    rfl

/-- A run that accepts no word begins no command, resets in it or not. -/
theorem runFor_begun_le (n : Nat) {s t : State} (hrun : runFor n s = .next t)
    (hacc : ∀ m u, m ≤ n → runFor m s = .next u → ¬u.accepts) : t.begun ≤ s.begun := by
  induction n generalizing s with
  | zero => cases hrun; rfl
  | succ n ih =>
    obtain ⟨u, hstep⟩ := noStepStops s
    have hrest : t.begun ≤ u.begun := ih ((runFor_step hstep n).symm.trans hrun)
      fun m v hm hv => hacc (m + 1) v (Nat.succ_le_succ hm) ((runFor_step hstep m).trans hv)
    exact hrest.trans (step_begun_le hstep (hacc 0 s (Nat.zero_le _) rfl))

/-- A command that a reset cuts off, with no word accepted after it, has no DONE at the end of the run (R126). -/
theorem completions_le_of_cut_off {n : Nat} {s t : State} (hn : nextTurn s = .rst)
    (hacc : ∀ m u, 1 ≤ m → m ≤ n + 1 → runFor m s = .next u → ¬u.accepts) (hrun : runFor (n + 1) s = .next t) :
    completions t.trace ≤ completions s.trace := by
  obtain ⟨u, hstep⟩ := noStepStops s
  obtain ⟨hdone, hidle⟩ := (eachAcceptedWordCompletesOnce s u hstep).2 hn
  calc completions t.trace
      ≤ t.begun := Nat.le_add_right _ _
    _ ≤ u.begun := runFor_begun_le n ((runFor_step hstep n).symm.trans hrun) fun m v hm hv =>
        hacc (m + 1) v (Nat.succ_le_succ (Nat.zero_le m)) (Nat.succ_le_succ hm) ((runFor_step hstep m).trans hv)
    _ = completions s.trace := by rw [State.begun, hdone, hidle, Nat.add_zero]

/-- Settles O52: without a reset every command begun has its DONE once the block is in IDLE; one cut off at the start awaits a DONE
that the count of completions shows never comes. -/
theorem runsFinishAfterTheLastDone : Obligations.RunsFinishAfterTheLastDone := by
  refine ⟨fun n s t hrst hrun hquiet hwords => ?_, fun n s t hbusy hn hacc => ?_⟩
  · have ⟨hp, _, _, hoffer⟩ := hquiet
    have hnone : t.pending = [] := by rw [State.pending, hoffer, hwords]; rfl
    exact ⟨hrun, hquiet, hwords, runPastLastDone_of_end n hrst hrun hp hnone⟩
  · rintro ⟨hrun, ⟨hp, -⟩, -, hpast⟩
    have hmore : completions s.trace < completions t.trace :=
      (runPastLastDone_iff n s t).mp hpast 0 s (Nat.zero_le n) rfl (.inr hbusy)
    cases n with
    | zero => cases hrun; exact hbusy hp
    | succ n => exact Nat.not_lt.mpr (completions_le_of_cut_off hn hacc hrun) hmore

end Sys2Proof.Machine
